-- ==== Sys2Proof/Word.lean ====
section
/-! DEFINITION. The plain types every other file uses: bytes, channel and pattern numbers, moments of time. -/

namespace Sys2Proof

/-- One data byte of a frame (00 section 5.5). -/
abbrev Byte := BitVec 8

/-- A moment, or a length of time, in whole tenths of a millisecond: the finest unit any rule names
(R67, R119). Which moment is 0 is the model's choice (log 1). -/
abbrev Moment := Nat

/-- A channel number, 0 to 15 (00 section 5.2). -/
abbrev Channel := Fin 16

/-- A flash pattern number, 0 to 3 (R8). -/
abbrev Pattern := Fin 4

/-- The sixteen channels in ascending number, the order of every rule that takes several channels. -/
def allChannels : List Channel := [0, 1, 2, 3, 4, 5, 6, 7, 8, 9, 10, 11, 12, 13, 14, 15]

/-- The four patterns in ascending number. -/
def allPatterns : List Pattern := [0, 1, 2, 3]

end Sys2Proof
end

