-- ==== Sys2Proof/Config.lean ====
section
/-! DEFINITION. The names of 00 sections 3 to 5 (sources, classes, ports, lines) and the records of the
working configuration and of the stored image (chapter 1). The model has no free value (INVENTORY.md). -/

namespace Sys2Proof

/-- The four network sources (00 section 4). -/
inductive NetSource
  | cab | body | drive | service
deriving DecidableEq, Repr

/-- The six sources of a demand entry (00 section 4). -/
inductive Source
  | net (s : NetSource) | line | fallback
deriving DecidableEq, Repr

/-- The classes, in rising urgency (00 section 4). -/
inductive Class
  | comfort | duty | safety | force
deriving DecidableEq, Repr

/-- The two CAN ports (R181). -/
inductive Port
  | a | b
deriving DecidableEq, Repr

/-- The six hardwired lines: L0 to L3, EMG and SVC (R158). -/
inductive Line
  | conf (i : Fin 4) | emg | svc
deriving DecidableEq, Repr

/-- One value for each network source. -/
structure PerSource (α : Type) where
  cab : α
  body : α
  drive : α
  service : α
deriving DecidableEq, Repr

/-- The value kept for one network source. -/
def PerSource.get {α : Type} (t : PerSource α) : NetSource → α
  | .cab => t.cab
  | .body => t.body
  | .drive => t.drive
  | .service => t.service

/-- The table with one source's value replaced. -/
def PerSource.set {α : Type} (t : PerSource α) (s : NetSource) (x : α) : PerSource α :=
  match s with
  | .cab => { t with cab := x }
  | .body => { t with body := x }
  | .drive => { t with drive := x }
  | .service => { t with service := x }

/-- The same value for every network source. -/
def PerSource.const {α : Type} (x : α) : PerSource α := ⟨x, x, x, x⟩

/-- The four network sources in ascending source number. -/
def allNetSources : List NetSource := [.cab, .body, .drive, .service]

/-- The load kinds of R3. -/
inductive LoadKind
  | lamp | led | motor | heater
deriving DecidableEq, Repr

/-- The fallback settings of R3. -/
inductive Fallback
  | off | on | hold
deriving DecidableEq, Repr

/-- A channel profile: the eighteen fields of R3, each the whole number the configuration holds. -/
structure Profile where
  kind : Nat
  nominal : Nat
  decayShift : Nat
  warm : Nat
  trip : Nat
  shortRatio : Nat
  window : Nat
  retryLimit : Nat
  retryDelay : Nat
  fallback : Nat
  shedClass : Nat
  pwmAllowed : Nat
  period : Nat
  derate : Nat
  permission : Nat
  emergencyKeep : Nat
  openLoad : Nat
  pullUp : Nat
deriving DecidableEq, Repr

/-- The names of the profile fields, in the order of their numbers 0 to 17 (R3). -/
inductive ProfileField
  | kind | nominal | decayShift | warm | trip | shortRatio | window | retryLimit | retryDelay
  | fallback | shedClass | pwmAllowed | period | derate | permission | emergencyKeep | openLoad | pullUp
deriving DecidableEq, Repr

/-- The zone record: the nine fields of R5. -/
structure Zone where
  feederNominal : Nat
  feederShift : Nat
  feederWarm : Nat
  lv1 : Nat
  lv2 : Nat
  lv3 : Nat
  admissionInterval : Nat
  startGrace : Nat
  statusInterval : Nat
deriving DecidableEq, Repr

/-- The names of the zone fields, in the order of their numbers 0 to 8 (R5). -/
inductive ZoneField
  | feederNominal | feederShift | feederWarm | lv1 | lv2 | lv3 | admissionInterval | startGrace | statusInterval
deriving DecidableEq, Repr

/-- The times of one flash pattern, in 10 ms units (R8). -/
structure PatternTimes where
  onTime : Nat
  offTime : Nat
deriving DecidableEq, Repr

/-- The names of the pattern fields 0 and 1 (R8). -/
inductive PatternField
  | onTime | offTime
deriving DecidableEq, Repr

/-- The settings of one configurable line (R9). -/
structure LineSettings where
  polarity : Nat
  debounce : Nat
  mask : Nat
  command : Nat
deriving DecidableEq, Repr

/-- The names of the line fields 0 to 3 (R9). -/
inductive LineField
  | polarity | debounce | mask | command
deriving DecidableEq, Repr

/-- The working configuration: the five tables of R1. -/
structure WorkingConfig where
  profile : Vector Profile 16
  zone : Zone
  lapse : PerSource Nat
  pattern : Vector PatternTimes 4
  line : Vector LineSettings 4
deriving DecidableEq, Repr

/-- One field of the working configuration, as a command names it by table, index and number (R1). -/
inductive ConfigField
  | profile (c : Channel) (f : ProfileField)
  | zone (f : ZoneField)
  | lapse (s : NetSource)
  | pattern (p : Pattern) (f : PatternField)
  | line (i : Fin 4) (f : LineField)
deriving DecidableEq, Repr

/-- The stored image: the 325 values and the check word (R17), and the mark by which a failed (R16) or
an abandoned (R19) store makes the image fail its check whatever it holds. -/
structure StoredImage where
  values : WorkingConfig
  check : Nat
  spoiled : Bool
deriving DecidableEq, Repr

end Sys2Proof
end

