-- ==== Sys2Proof/Syntax.lean ====
section
/-! DEFINITION. The commands: one constructor for each row of spec/opcode_table.json, with the operands
the rules give it (log 5). -/

namespace Sys2Proof

/-- What R183 tests of a received frame, beside its data: the port it arrives at, whether its
identifier has 29 bits, whether it is a remote frame, the identifier and the data length. -/
structure RxHeader where
  port : Port
  extended : Bool
  remote : Bool
  ident : Nat
  length : Nat
deriving DecidableEq, Repr

/-- The pins a reset reads at its end: the two zone-address straps as a value (R182) and the levels at
the six line pins, true for high (R167). -/
structure ResetPins where
  straps : Fin 4
  conf : Vector Bool 4
  emg : Bool
  svc : Bool
deriving DecidableEq, Repr

/-- What one scan measures: the feeder current and the channel currents in mA, the supply voltage and
the output voltages in mV, below zero included (R70, R75; log 6). -/
structure ScanReadings where
  feeder : Int
  supply : Int
  current : Vector Int 16
  voltage : Vector Int 16
deriving DecidableEq, Repr

/-- One delivery a scan makes: the sample of a channel to the protection unit, or the zone sample to
the supply supervisor (R68, R75). -/
inductive Delivery
  | channel (c : Channel) | zone
deriving DecidableEq, Repr

/-- A command code that no command has: 0, or 16 to 255 (R186 step 2). -/
abbrev UnknownCode := { c : Byte // c.toNat = 0 ∨ 16 ≤ c.toNat }

/-- The commands of the block, in the order of spec/opcode_table.json. A command frame's byte 0 is the
code of its row, so its operands are the frame's header and bytes 1 to 7. -/
inductive Instr
  | powerOn (pins : ResetPins)
  | supplyDip (pins : ResetPins)
  | external (pins : ResetPins)
  | demand (rx : RxHeader) (data : Vector Byte 8)
  | pulseTimerExpiry (src : NetSource) (c : Channel)
  | lapse (src : NetSource) (c : Channel)
  | startGraceEnd
  | admission
  | inrushTimerExpiry (c : Channel)
  | allowanceTimerExpiry (c : Channel)
  | periodBoundary (c : Channel)
  | phaseTimerExpiry (p : Pattern)
  | scan (readings : ScanReadings) (order : List Delivery)
  | pwmMidpoint (c : Channel) (current : Int)
  | offTimeWaitComplete (c : Channel)
  | fuseTick (c : Channel)
  | retryDelayExpiry (c : Channel)
  | stableRunExpiry (c : Channel)
  | feederFuseTick
  | floorExpiry (src : NetSource)
  | lineLevelChange (line : Line) (high : Bool)
  | debounceExpiry (line : Line) (floorFirst : Bool)
  | release (rx : RxHeader) (args : Vector Byte 7)
  | clearChannel (rx : RxHeader) (args : Vector Byte 7)
  | clearEmergency (rx : RxHeader) (args : Vector Byte 7)
  | clearFaults (rx : RxHeader) (args : Vector Byte 7)
  | shedFloor (rx : RxHeader) (args : Vector Byte 7)
  | flashSync (rx : RxHeader) (args : Vector Byte 7)
  | queryChannel (rx : RxHeader) (args : Vector Byte 7)
  | queryProtection (rx : RxHeader) (args : Vector Byte 7)
  | queryEntry (rx : RxHeader) (args : Vector Byte 7)
  | queryZone (rx : RxHeader) (args : Vector Byte 7)
  | readFault (rx : RxHeader) (args : Vector Byte 7)
  | readLimitLog (rx : RxHeader) (args : Vector Byte 7)
  | configRead (rx : RxHeader) (args : Vector Byte 7)
  | configWrite (rx : RxHeader) (args : Vector Byte 7)
  | configStore (rx : RxHeader) (args : Vector Byte 7)
  | unknownCommand (rx : RxHeader) (code : UnknownCode) (args : Vector Byte 7)
  | storeCompletion (readBack : Option StoredImage)
  | statusDue (port : Port)
  | takeIntoTransmission (port : Port)
  | frameSent (port : Port)
  | busOff (port : Port)
  | linkReturn (port : Port)
  | uptimeTick
deriving DecidableEq, Repr

end Sys2Proof
end

