-- ==== Sys2Proof/WellFormed.lean ====
section
/-! DEFINITION. When the operands of a command are ones the outside can present: identifiers and data
lengths a CAN frame can have, deliveries named at most once, values a stored image can hold. A command
that is not well formed still has a meaning; no frame, scan or read-back can carry it. -/

namespace Sys2Proof

/-- A frame a CAN controller can receive: 11 or 29 identifier bits, at most eight data bytes
(R181, R183). -/
def RxHeader.wf (rx : RxHeader) : Bool :=
  decide (rx.ident < if rx.extended then 2 ^ 29 else 2 ^ 11) && decide (rx.length ≤ 8)

/-- Each delivery is named at most once (R68). -/
def wfOrder (order : List Delivery) : Bool := decide order.Nodup

/-- Every one of the 325 values and the check word is a number from 0 to 65535 (R1, R17), and the
image read back is a plain copy, which carries no mark. -/
def StoredImage.wfReadBack (im : StoredImage) : Bool :=
  let word (n : Nat) : Bool := decide (n < 65536)
  let profile (p : Profile) : Bool :=
    [p.kind, p.nominal, p.decayShift, p.warm, p.trip, p.shortRatio, p.window, p.retryLimit, p.retryDelay,
      p.fallback, p.shedClass, p.pwmAllowed, p.period, p.derate, p.permission, p.emergencyKeep,
      p.openLoad, p.pullUp].all word
  let z := im.values.zone
  let l := im.values.lapse
  allChannels.all (fun c => profile im.values.profile[c])
    && [z.feederNominal, z.feederShift, z.feederWarm, z.lv1, z.lv2, z.lv3, z.admissionInterval,
      z.startGrace, z.statusInterval, l.cab, l.body, l.drive, l.service, im.check].all word
    && allPatterns.all (fun p => word im.values.pattern[p].onTime && word im.values.pattern[p].offTime)
    && allPatterns.all (fun i => [im.values.line[i].polarity, im.values.line[i].debounce,
      im.values.line[i].mask, im.values.line[i].command].all word)
    && !im.spoiled

/-- A command whose operands the outside can present. -/
def Instr.wf : Instr → Bool
  | .powerOn _ | .supplyDip _ | .external _ => true
  | .demand rx _ => rx.wf
  | .pulseTimerExpiry _ _ | .lapse _ _ | .startGraceEnd | .admission => true
  | .inrushTimerExpiry _ | .allowanceTimerExpiry _ | .periodBoundary _ | .phaseTimerExpiry _ => true
  | .scan _ order => wfOrder order
  | .pwmMidpoint _ _ | .offTimeWaitComplete _ | .fuseTick _ | .retryDelayExpiry _ => true
  | .stableRunExpiry _ | .feederFuseTick | .floorExpiry _ => true
  | .lineLevelChange _ _ | .debounceExpiry _ _ => true
  | .release rx _ => rx.wf
  | .clearChannel rx _ => rx.wf
  | .clearEmergency rx _ => rx.wf
  | .clearFaults rx _ => rx.wf
  | .shedFloor rx _ => rx.wf
  | .flashSync rx _ => rx.wf
  | .queryChannel rx _ => rx.wf
  | .queryProtection rx _ => rx.wf
  | .queryEntry rx _ => rx.wf
  | .queryZone rx _ => rx.wf
  | .readFault rx _ => rx.wf
  | .readLimitLog rx _ => rx.wf
  | .configRead rx _ => rx.wf
  | .configWrite rx _ => rx.wf
  | .configStore rx _ => rx.wf
  | .unknownCommand rx _ _ => rx.wf
  | .storeCompletion none => true
  | .storeCompletion (some im) => im.wfReadBack
  | .statusDue _ | .takeIntoTransmission _ | .frameSent _ | .busOff _ | .linkReturn _ | .uptimeTick => true

end Sys2Proof
end

