-- ==== Sys2Proof/Decode.lean ====
section
/-! DEFINITION. The table's words: no row of spec/opcode_table.json gives bits (its "fields" are all
empty), so no word spells a command. And the command that the eight data bytes of a COMMAND frame carry, by the code
column of R187; which frames a port accepts is said in Machine/Operands.lean. -/

namespace Sys2Proof

/-- The command a word spells by the bits of spec/opcode_table.json: none, as no row gives any. -/
def decodeTableWord (_nbits _w : Nat) : Option Instr := none

/-- The argument bytes of a COMMAND frame: bytes 1 to 7 (R184). -/
def commandArgs (data : Vector Byte 8) : Vector Byte 7 := Vector.ofFn fun k => data[k.val + 1]

/-- The command of a COMMAND frame, by the code in its byte 0: 1 RELEASE to 15 CONFIG_STORE (R187), an unknown code for 0
and from 16 on (R186 step 2). -/
def commandOfFrame (rx : RxHeader) (data : Vector Byte 8) : Instr :=
  let args := commandArgs data
  match h : data[0].toNat with
  | 0 => .unknownCommand rx ⟨data[0], .inl h⟩ args
  | 1 => .release rx args
  | 2 => .clearChannel rx args
  | 3 => .clearEmergency rx args
  | 4 => .clearFaults rx args
  | 5 => .shedFloor rx args
  | 6 => .flashSync rx args
  | 7 => .queryChannel rx args
  | 8 => .queryProtection rx args
  | 9 => .queryEntry rx args
  | 10 => .queryZone rx args
  | 11 => .readFault rx args
  | 12 => .readLimitLog rx args
  | 13 => .configRead rx args
  | 14 => .configWrite rx args
  | 15 => .configStore rx args
  | n + 16 => .unknownCommand rx ⟨data[0], .inr (by omega)⟩ args

end Sys2Proof
end

