-- ==== Sys2Proof/Machine/ConfigTable.lean ====
section
/-! DEFINITION. The configuration tables of chapter 1: the numbers by which a command names a field, the
ranges, the built-in defaults, the relations of R2, the check word of R17, and how a block reads a field
that codes a choice, a set or a yes-or-no. -/

namespace Sys2Proof

/-! ### Naming a field (R1) -/

/-- The number of each profile field, in the table's order (R3). -/
def profileFields : List ProfileField :=
  [.kind, .nominal, .decayShift, .warm, .trip, .shortRatio, .window, .retryLimit, .retryDelay,
   .fallback, .shedClass, .pwmAllowed, .period, .derate, .permission, .emergencyKeep, .openLoad, .pullUp]

/-- The zone fields in the order of their numbers (R5). -/
def zoneFields : List ZoneField :=
  [.feederNominal, .feederShift, .feederWarm, .lv1, .lv2, .lv3, .admissionInterval, .startGrace, .statusInterval]

/-- The pattern fields in the order of their numbers (R8). -/
def patternFields : List PatternField := [.onTime, .offTime]

/-- The line fields in the order of their numbers (R9). -/
def lineFields : List LineField := [.polarity, .debounce, .mask, .command]

/-- The four numbers below 4 as indices of lines and patterns. -/
def index4 (n : Nat) : Option (Fin 4) := if h : n < 4 then some ⟨n, h⟩ else none

/-- A channel named by a number: none above 15. -/
def channelOf (n : Nat) : Option Channel := if h : n < 16 then some ⟨n, h⟩ else none

/-- The network source of a source number, 1 to 4 (R7). -/
def netSourceOf : Nat → Option NetSource
  | 1 => some .cab
  | 2 => some .body
  | 3 => some .drive
  | 4 => some .service
  | _ => none

/-- The field a table number, an index and a field number name, or none (R1, R11). -/
def nameField (table index field : Nat) : Option ConfigField :=
  match table with
  | 0 => (channelOf index).bind fun c => (profileFields[field]?).map (.profile c)
  | 1 => if index = 0 then (zoneFields[field]?).map .zone else none
  | 2 => if field = 0 then (netSourceOf index).map .lapse else none
  | 3 => (index4 index).bind fun p => (patternFields[field]?).map (.pattern p)
  | 4 => (index4 index).bind fun i => (lineFields[field]?).map (.line i)
  | _ => none

/-! ### Reading and replacing a field -/

/-- The value of a profile field (R3). -/
def Profile.get (p : Profile) : ProfileField → Nat
  | .kind => p.kind
  | .nominal => p.nominal
  | .decayShift => p.decayShift
  | .warm => p.warm
  | .trip => p.trip
  | .shortRatio => p.shortRatio
  | .window => p.window
  | .retryLimit => p.retryLimit
  | .retryDelay => p.retryDelay
  | .fallback => p.fallback
  | .shedClass => p.shedClass
  | .pwmAllowed => p.pwmAllowed
  | .period => p.period
  | .derate => p.derate
  | .permission => p.permission
  | .emergencyKeep => p.emergencyKeep
  | .openLoad => p.openLoad
  | .pullUp => p.pullUp

/-- The profile with one field replaced. -/
def Profile.set (p : Profile) (f : ProfileField) (v : Nat) : Profile :=
  match f with
  | .kind => { p with kind := v }
  | .nominal => { p with nominal := v }
  | .decayShift => { p with decayShift := v }
  | .warm => { p with warm := v }
  | .trip => { p with trip := v }
  | .shortRatio => { p with shortRatio := v }
  | .window => { p with window := v }
  | .retryLimit => { p with retryLimit := v }
  | .retryDelay => { p with retryDelay := v }
  | .fallback => { p with fallback := v }
  | .shedClass => { p with shedClass := v }
  | .pwmAllowed => { p with pwmAllowed := v }
  | .period => { p with period := v }
  | .derate => { p with derate := v }
  | .permission => { p with permission := v }
  | .emergencyKeep => { p with emergencyKeep := v }
  | .openLoad => { p with openLoad := v }
  | .pullUp => { p with pullUp := v }

/-- The value of a zone field (R5). -/
def Zone.get (z : Zone) : ZoneField → Nat
  | .feederNominal => z.feederNominal
  | .feederShift => z.feederShift
  | .feederWarm => z.feederWarm
  | .lv1 => z.lv1
  | .lv2 => z.lv2
  | .lv3 => z.lv3
  | .admissionInterval => z.admissionInterval
  | .startGrace => z.startGrace
  | .statusInterval => z.statusInterval

/-- The zone record with one field replaced. -/
def Zone.set (z : Zone) (f : ZoneField) (v : Nat) : Zone :=
  match f with
  | .feederNominal => { z with feederNominal := v }
  | .feederShift => { z with feederShift := v }
  | .feederWarm => { z with feederWarm := v }
  | .lv1 => { z with lv1 := v }
  | .lv2 => { z with lv2 := v }
  | .lv3 => { z with lv3 := v }
  | .admissionInterval => { z with admissionInterval := v }
  | .startGrace => { z with startGrace := v }
  | .statusInterval => { z with statusInterval := v }

/-- The value of a pattern field (R8). -/
def PatternTimes.get (t : PatternTimes) : PatternField → Nat
  | .onTime => t.onTime
  | .offTime => t.offTime

/-- The pattern record with one field replaced. -/
def PatternTimes.set (t : PatternTimes) (f : PatternField) (v : Nat) : PatternTimes :=
  match f with
  | .onTime => { t with onTime := v }
  | .offTime => { t with offTime := v }

/-- The value of a line field (R9). -/
def LineSettings.get (l : LineSettings) : LineField → Nat
  | .polarity => l.polarity
  | .debounce => l.debounce
  | .mask => l.mask
  | .command => l.command

/-- The line record with one field replaced. -/
def LineSettings.set (l : LineSettings) (f : LineField) (v : Nat) : LineSettings :=
  match f with
  | .polarity => { l with polarity := v }
  | .debounce => { l with debounce := v }
  | .mask => { l with mask := v }
  | .command => { l with command := v }

/-- The value a field of the working configuration holds (R1, R11). -/
def WorkingConfig.read (g : WorkingConfig) : ConfigField → Nat
  | .profile c f => g.profile[c].get f
  | .zone f => g.zone.get f
  | .lapse s => g.lapse.get s
  | .pattern p f => g.pattern[p].get f
  | .line i f => g.line[i].get f

/-- The working configuration with one field replaced (R12). -/
def WorkingConfig.write (g : WorkingConfig) (n : ConfigField) (v : Nat) : WorkingConfig :=
  match n with
  | .profile c f => { g with profile := g.profile.set c (g.profile[c].set f v) }
  | .zone f => { g with zone := g.zone.set f v }
  | .lapse s => { g with lapse := g.lapse.set s v }
  | .pattern p f => { g with pattern := g.pattern.set p (g.pattern[p].set f v) }
  | .line i f => { g with line := g.line.set i (g.line[i].set f v) }

/-! ### Ranges and relations (R2 to R9) -/

/-- The least and the greatest value of a profile field (R3). -/
def ProfileField.range : ProfileField → Nat × Nat
  | .kind => (0, 3)
  | .nominal => (5, 300)
  | .decayShift => (6, 16)
  | .warm => (4096, 65535)
  | .trip => (4096, 65535)
  | .shortRatio => (64, 1023)
  | .window => (0, 255)
  | .retryLimit => (0, 7)
  | .retryDelay => (1, 255)
  | .fallback => (0, 2)
  | .shedClass => (0, 3)
  | .pwmAllowed => (0, 1)
  | .period => (20, 20000)
  | .derate => (25, 250)
  | .permission => (0, 15)
  | .emergencyKeep => (0, 1)
  | .openLoad => (0, 255)
  | .pullUp => (0, 1)

/-- The least and the greatest value of a zone field (R5). -/
def ZoneField.range : ZoneField → Nat × Nat
  | .feederNominal => (10, 200)
  | .feederShift => (10, 16)
  | .feederWarm => (4096, 65535)
  | .lv1 => (100, 320)
  | .lv2 => (100, 320)
  | .lv3 => (100, 320)
  | .admissionInterval => (0, 100)
  | .startGrace => (0, 50)
  | .statusInterval => (20, 1000)

/-- The least and the greatest value of a line field: the command is ON 0 or FLASH with pattern p coded
as p + 1 (R9). -/
def LineField.range : LineField → Nat × Nat
  | .polarity => (0, 1)
  | .debounce => (0, 255)
  | .mask => (0, 65535)
  | .command => (0, 4)

/-- The least and the greatest value of a field (R3, R5, R7, R8, R9). -/
def ConfigField.range : ConfigField → Nat × Nat
  | .profile _ f => f.range
  | .zone f => f.range
  | .lapse _ => (5, 255)
  | .pattern _ _ => (1, 255)
  | .line _ f => f.range

/-- The value lies in the field's range; a range includes both ends (00 section 5.1). -/
def ConfigField.inRange (n : ConfigField) (v : Nat) : Bool :=
  decide (n.range.1 ≤ v) && decide (v ≤ n.range.2)

/-- The relation between the levels of a profile (R2). -/
def Profile.related (p : Profile) : Bool := decide (p.warm < p.trip)

/-- The relation between the thresholds of the zone record (R2). -/
def Zone.related (z : Zone) : Bool := decide (z.lv2 < z.lv1) && decide (z.lv3 < z.lv2)

/-- The relation of R2 that a write of a field bears on, in the configuration as written (R12 check 5). -/
def WorkingConfig.relatedAt (g : WorkingConfig) : ConfigField → Bool
  | .profile c .warm => g.profile[c].related
  | .profile c .trip => g.profile[c].related
  | .zone .lv1 => g.zone.related
  | .zone .lv2 => g.zone.related
  | .zone .lv3 => g.zone.related
  | _ => true

/-- Every field of a profile in its range, and its relation kept (R2, R3). -/
def Profile.valid (p : Profile) : Bool :=
  profileFields.all (fun f => decide (f.range.1 ≤ p.get f) && decide (p.get f ≤ f.range.2)) && p.related

/-- Every field of the zone record in its range, and its relations kept (R2, R5). -/
def Zone.valid (z : Zone) : Bool :=
  zoneFields.all (fun f => decide (f.range.1 ≤ z.get f) && decide (z.get f ≤ f.range.2)) && z.related

/-- Every one of the 325 values in its range, and the relations of R2 kept (R2, R18). -/
def WorkingConfig.valid (g : WorkingConfig) : Bool :=
  allChannels.all (fun c => g.profile[c].valid) && g.zone.valid
    && allNetSources.all (fun s => (ConfigField.lapse s).inRange (g.lapse.get s))
    && allPatterns.all (fun p => patternFields.all fun f => (ConfigField.pattern p f).inRange (g.pattern[p].get f))
    && allPatterns.all (fun i => lineFields.all fun f => (ConfigField.line i f).inRange (g.line[i].get f))

/-! ### The built-in defaults -/

/-- The default profile, the same for all channels (R3). -/
def Profile.default : Profile :=
  { kind := 0, nominal := 10, decayShift := 10, warm := 4096, trip := 6553, shortRatio := 512, window := 10,
    retryLimit := 3, retryDelay := 10, fallback := 0, shedClass := 3, pwmAllowed := 0, period := 100,
    derate := 150, permission := 15, emergencyKeep := 0, openLoad := 0, pullUp := 0 }

/-- The default zone record (R5). -/
def Zone.default : Zone :=
  { feederNominal := 100, feederShift := 14, feederWarm := 4096, lv1 := 230, lv2 := 215, lv3 := 200,
    admissionInterval := 20, startGrace := 10, statusInterval := 100 }

/-- The built-in defaults (R3, R5, R7, R8, R9). -/
def WorkingConfig.default : WorkingConfig :=
  { profile := Vector.replicate 16 Profile.default
    zone := Zone.default
    lapse := PerSource.const 50
    pattern := #v[⟨34, 33⟩, ⟨34, 33⟩, ⟨10, 90⟩, ⟨50, 50⟩]
    line := Vector.replicate 4 ⟨0, 20, 0, 0⟩ }

/-! ### The check word (R17) -/

/-- The sum of the values of one profile. -/
def Profile.sum (p : Profile) : Nat := (profileFields.map p.get).sum

/-- The sum of the 325 values (R17). -/
def WorkingConfig.sum (g : WorkingConfig) : Nat :=
  (allChannels.map fun c => g.profile[c].sum).sum + (zoneFields.map g.zone.get).sum
    + (allNetSources.map g.lapse.get).sum
    + (allPatterns.map fun p => (patternFields.map g.pattern[p].get).sum).sum
    + (allPatterns.map fun i => (lineFields.map g.line[i].get).sum).sum

/-- The check word of a configuration: 65535 less the remainder of the sum divided by 65536 (R17). -/
def WorkingConfig.checkWord (g : WorkingConfig) : Nat := 65535 - g.sum % 65536

/-- The image a store writes: the values with their check word (R14, R17). -/
def WorkingConfig.toImage (g : WorkingConfig) : StoredImage := ⟨g, g.checkWord, false⟩

/-- The image passes its check: values and check word sum to 65535 modulo 65536, and no failed or
abandoned store has marked it (R16, R17, R19). -/
def StoredImage.passes (im : StoredImage) : Bool :=
  !im.spoiled && decide ((im.values.sum + im.check) % 65536 = 65535)

/-- The load accepts the image: it passes its check, and ranges and relations hold (R18). -/
def StoredImage.accepted (im : StoredImage) : Bool := im.passes && im.values.valid

/-- What the load makes the working configuration (R18). -/
def StoredImage.load (im : StoredImage) : WorkingConfig :=
  if im.accepted then im.values else WorkingConfig.default

/-- The image of a part as delivered: it fails its check (R17). Its contents are the model's choice (log 10). -/
def StoredImage.delivered : StoredImage := ⟨WorkingConfig.default, WorkingConfig.default.checkWord, true⟩

/-! ### Fields that code a choice, a set or a yes-or-no (R3, R9) -/

/-- The load kind (R3). -/
def Profile.loadKind (p : Profile) : LoadKind :=
  match p.kind with
  | 0 => .lamp
  | 1 => .led
  | 2 => .motor
  | _ => .heater

/-- Kind LAMP or MOTOR, with an inrush window above 0: a queue-using channel (R122), the channels that
get an allowance from an ON phase (R130). -/
def Profile.queueUsing (p : Profile) : Bool :=
  (p.loadKind == .lamp || p.loadKind == .motor) && decide (0 < p.window)

/-- The inrush window in moments: the field counts 10 ms (R3). -/
def Profile.windowLength (p : Profile) : Moment := 100 * p.window

/-- The retry delay in moments: the field counts 100 ms (R3, R98). -/
def Profile.retryLength (p : Profile) : Moment := 1000 * p.retryDelay

/-- The fallback setting (R3). -/
def Profile.fallbackKind (p : Profile) : Fallback :=
  match p.fallback with
  | 0 => .off
  | 1 => .on
  | _ => .hold

/-- The permission set includes a source: CAB 1, BODY 2, DRIVE 4, SERVICE 8 (R3). -/
def Profile.permits (p : Profile) : NetSource → Bool
  | .cab => p.permission.testBit 0
  | .body => p.permission.testBit 1
  | .drive => p.permission.testBit 2
  | .service => p.permission.testBit 3

/-- PWM allowed yes (R3). -/
def Profile.allowsPwm (p : Profile) : Bool := p.pwmAllowed == 1

/-- Emergency-keep yes (R3). -/
def Profile.keeps (p : Profile) : Bool := p.emergencyKeep == 1

/-- The off-state pull-up is on (R3). -/
def Profile.pulls (p : Profile) : Bool := p.pullUp == 1

/-- The derate cap in per mille (R58). -/
def Profile.cap (p : Profile) : Nat := 4 * p.derate

/-- The line's mask includes a channel: the sum of 2^n for each bound channel n (R9). -/
def LineSettings.binds (l : LineSettings) (c : Channel) : Bool := l.mask.testBit c.val

/-- The pattern of a line whose command is FLASH, none for ON (R9). -/
def LineSettings.flashPattern (l : LineSettings) : Option Pattern :=
  match l.command with
  | 0 => none
  | n + 1 => index4 n

end Sys2Proof
end

