-- ==== Sys2Proof/Machine/State.lean ====
section
/-! DEFINITION. The state of the RZP16, block by block (00 section 2), the reasons a step can stop, and the
state right after reset. INVENTORY.md lists every field with the rule that names it. -/

namespace Sys2Proof.Machine

/-! ### Demand table (chapter 2) -/

/-- A demand without its source and class: what a FALLBACK or LINE entry, the last network winner and
all commands but PULSE carry (R23, R36). -/
inductive Ask
  | off
  | on
  | dim (duty : Nat)
  | flash (p : Pattern)
deriving DecidableEq, Repr

/-- The phase of a pulse entry; RUNNING carries the moment its pulse timer expires (R23, R31). -/
inductive PulsePhase
  | running (ends : Moment)
  | spent
deriving DecidableEq, Repr

/-- The command of a demand entry with the fields that go with it; a pulse carries its length in ms (R23). -/
inductive EntryCommand
  | ask (a : Ask)
  | pulse (length : Nat) (phase : PulsePhase)
deriving DecidableEq, Repr

/-- A demand entry of one source; the deadline is the moment the lapse deadline expires, present for
the network sources (R23, R32). -/
structure Entry where
  cls : Class
  command : EntryCommand
  deadline : Option Moment
deriving DecidableEq, Repr

/-- A demand list: at most one entry for each source (R23). -/
structure DemandList where
  net : PerSource (Option Entry)
  line : Option Entry
  fallback : Option Entry
deriving DecidableEq, Repr

/-- What the demand table keeps for a channel (R23, R36, R38). -/
structure DemandRecord where
  list : DemandList
  lastNetworkWinner : Option Ask
  claimed : Bool
deriving DecidableEq, Repr

/-! ### Arbitration unit (chapter 3) -/

/-- A limit cause (R46, R63), in the order of the codes of R186. -/
inductive LimitCause
  | lockout | protect | emergency | overvoltage | shed | derate | refused | lapse
deriving DecidableEq, Repr

/-- A set of limit causes (R46). -/
structure CauseSet where
  lockout : Bool
  protect : Bool
  emergency : Bool
  overvoltage : Bool
  shed : Bool
  derate : Bool
  refused : Bool
  lapse : Bool
deriving DecidableEq, Repr

/-- The command copied from the winning entry (R46). -/
inductive WonCommand
  | ask (a : Ask)
  | pulse
deriving DecidableEq, Repr

/-- The copy of the winning entry (R46). -/
structure Winner where
  source : Source
  cls : Class
  command : WonCommand
deriving DecidableEq, Repr

/-- A granted output (R46, R60). -/
inductive Granted
  | off
  | steady
  | pwm (duty : Nat)
  | flash (p : Pattern)
deriving DecidableEq, Repr

/-- The arbitration record of a channel (R46). -/
structure ArbRecord where
  winner : Option Winner
  granted : Granted
  status : CauseSet
  log : CauseSet
deriving DecidableEq, Repr

/-! ### Sense scanner (chapter 4) -/

/-- What the scanner takes from a channel; PERIODIC carries period start, effective on-time and
midpoint pending (R67, R69). -/
inductive SampleKind
  | current
  | voltage
  | periodic (start : Moment) (effective : Nat) (pending : Bool)
deriving DecidableEq, Repr

/-- The sense record of a channel; valid is the sample mark VALID (R67). -/
structure SenseRecord where
  current : Nat
  valid : Bool
  saturated : Bool
  voltage : Nat
  kind : SampleKind
deriving DecidableEq, Repr

/-- The zone record of the scanner and the moment of the last scan (R67, R68). -/
structure ScanRecord where
  feeder : Nat
  supply : Nat
  last : Moment
deriving DecidableEq, Repr

/-! ### Protection unit (chapters 5 and 6) -/

/-- The kind of a trip (R95). -/
inductive TripKind
  | overload | short
deriving DecidableEq, Repr

/-- The retry-delay timer of a short trip (R95, R103). -/
inductive RetryDelay
  | running (ends : Moment)
  | expired
deriving DecidableEq, Repr

/-- The protection state with the fields present in it (R95). -/
inductive ProtState
  | ready
  | warm
  | trippedOverload
  | trippedShort (delay : RetryDelay)
  | lockout (kind : TripKind)
deriving DecidableEq, Repr

/-- The off-time wait: cleared while the output is not OFF, running since a moment, or complete (R95, R113). -/
inductive OffWait
  | cleared
  | since (start : Moment)
  | complete
deriving DecidableEq, Repr

/-- The protection record of a channel with its heat estimate H and the moment of its last fuse tick (R79, R80, R95). -/
structure ProtRecord where
  heat : Nat
  state : ProtState
  retries : Nat
  stableRun : Option Moment
  onCount : Nat
  offWait : OffWait
  offCount : Nat
  openLoadOn : Bool
  openLoadOff : Bool
  shortToSupply : Bool
  lastTick : Moment
deriving DecidableEq, Repr

/-! ### Switch controller (chapter 7) -/

/-- A staged output (R119). -/
inductive Staged
  | steady
  | pwm (duty : Nat)
deriving DecidableEq, Repr

/-- The output state of a channel, with the fields of the switch record present in it (R119). RUNNING
STEADY has the applied duty 1000. -/
inductive OutState
  | off
  | waiting
  | inrush (ends : Moment)
  | steady (staged : Staged) (start : Moment)
  | pwm (applied : Nat) (onTime : Nat) (staged : Staged) (start : Moment)
  | flash (p : Pattern)
deriving DecidableEq, Repr

/-- The switch record of a channel; allowance is the moment the allowance timer runs out (R119). -/
structure SwitchRecord where
  out : OutState
  granted : Granted
  cls : Option Class
  allowance : Option Moment
deriving DecidableEq, Repr

/-- The switch-on queue, its two groups head first, and the time of the last admission (R124, R125). -/
structure SwitchQueue where
  front : List Channel
  back : List Channel
  lastAdmission : Option Moment
deriving DecidableEq, Repr

/-- The phase of a running pattern (R136). -/
inductive Phase
  | on | off
deriving DecidableEq, Repr

/-- The state of a pattern generator; a running pattern has the moment its phase ends and its latched
times (R136, R137). -/
inductive GenState
  | stopped
  | running (phase : Phase) (ends : Moment) (onTime offTime : Moment)
deriving DecidableEq, Repr

/-- A pattern generator (R136). -/
structure Generator where
  users : Nat
  state : GenState
deriving DecidableEq, Repr

/-! ### Supply supervisor (chapter 8) -/

/-- One run for each of the levels 1, 2 and 3: the time of its first sample, or none (R142). -/
structure Runs where
  one : Option Moment
  two : Option Moment
  three : Option Moment
deriving DecidableEq, Repr

/-- A standing shed floor: its level, 1 to 3, and the moment it expires (R142, R151). -/
structure Floor where
  level : Nat
  ends : Moment
deriving DecidableEq, Repr

/-- The supervisor's record with the feeder heat estimate H_f (R79, R142). -/
structure Supervisor where
  heat : Nat
  lastTick : Moment
  voltageLevel : Nat
  low : Runs
  recovery : Runs
  hold : Bool
  high : Option Moment
  release : Option Moment
  latest : Option Nat
  thermalLevel : Nat
  dwellStart : Moment
  floors : PerSource (Option Floor)
  level : Nat
deriving DecidableEq, Repr

/-! ### Line inputs (chapter 9) -/

/-- A line record: the level at the pin (true for high), the debounced state (true for ACTIVE) and the
debounce start (R158). -/
structure LineRecord where
  high : Bool
  active : Bool
  debounce : Option Moment
deriving DecidableEq, Repr

/-- The six line records (R158). -/
structure Lines where
  conf : Vector LineRecord 4
  emg : LineRecord
  svc : LineRecord
deriving DecidableEq, Repr

/-! ### Fault list (chapter 10) -/

/-- A fault cause with the channel or source its record is kept for: the key of a record (R168, R170). -/
inductive FaultKey
  | overloadTrip (c : Channel)
  | shortTrip (c : Channel)
  | lockout (c : Channel)
  | openLoadOn (c : Channel)
  | openLoadOff (c : Channel)
  | shortToSupply (c : Channel)
  | sourceLapsed (s : NetSource)
  | supplyLow
  | supplyHigh
  | feederWarm
  | emergency
  | configDefaulted
  | storeFailed
deriving DecidableEq, Repr

/-- A fault record (R170). -/
structure FaultRecord where
  key : FaultKey
  first : Nat
  last : Nat
  count : Nat
  active : Bool
deriving DecidableEq, Repr

/-- A report to the fault list: an occurrence of an event or the beginning of a condition, or the end of a
condition (R171). -/
inductive Report
  | occur (k : FaultKey)
  | finish (k : FaultKey)
deriving DecidableEq, Repr

/-- The reports one event at another block makes, in the order in which it makes them, with the uptime (R171). -/
structure EventReports where
  uptime : Nat
  reports : List Report
deriving DecidableEq, Repr

/-- What reports change: the records, oldest first, and the overflow flag (R170, R173). -/
structure FaultRecords where
  records : List FaultRecord
  overflow : Bool
deriving DecidableEq, Repr

/-- The reports that reach the fault list together: the moment, the list as they found it, and the events that made
reports since, in the order taken (R175; the model's own, log 29). -/
structure Together where
  moment : Moment
  before : FaultRecords
  events : List EventReports
deriving DecidableEq, Repr

/-- The fault list, oldest record first, the overflow flag, the uptime clock with the moment its running second
began, and the latest reports that fall together (R169, R170, R173, R175). -/
structure FaultList where
  records : List FaultRecord
  overflow : Bool
  uptime : Nat
  secondStart : Moment
  together : Together
deriving DecidableEq, Repr

/-! ### Network ports (chapter 11) -/

/-- A REPLY frame: its requester and its eight bytes (R184). -/
structure Reply where
  requester : NetSource
  data : Vector Byte 8
deriving DecidableEq, Repr

/-- A frame of the part in transmission (R203). -/
inductive TxFrame
  | reply (r : Reply)
  | status (data : Vector Byte 8)
deriving DecidableEq, Repr

/-- The link state of a port; OFFLINE carries the moment of the bus-off (R181). -/
inductive Link
  | online
  | offline (since : Moment)
deriving DecidableEq, Repr

/-- A port: link state, the REPLY frames and the STATUS frame of its transmit queue, the transmit
buffer, and the previous STATUS due moment (R181, R201, R203). -/
structure PortRecord where
  link : Link
  replies : List Reply
  status : Option (Vector Byte 8)
  sending : Option TxFrame
  lastDue : Moment
deriving DecidableEq, Repr

/-! ### Configuration store (chapter 1) -/

/-- The store state; STORING carries the moment of acceptance (R14, R16). -/
inductive StoreState
  | idle
  | storing (since : Moment)
deriving DecidableEq, Repr

/-- The kinds of reset (00 section 5.7, R21). -/
inductive ResetCause
  | powerOn | supplyDip | external
deriving DecidableEq, Repr

/-! ### The whole part -/

/-- All that the blocks keep for one channel. -/
structure ChannelState where
  demand : DemandRecord
  arb : ArbRecord
  sense : SenseRecord
  prot : ProtRecord
  sw : SwitchRecord
deriving DecidableEq, Repr

/-- The state of the part. The last two fields are the model's own: the clock (log 1) and the commands
waiting, first in, first out. -/
structure State where
  cfg : WorkingConfig
  image : StoredImage
  store : StoreState
  resetCause : ResetCause
  chans : Vector ChannelState 16
  lapsed : PerSource Bool
  graceStart : Option Moment
  scan : ScanRecord
  queue : SwitchQueue
  gens : Vector Generator 4
  sup : Supervisor
  lines : Lines
  latch : Bool
  faults : FaultList
  portA : PortRecord
  portB : PortRecord
  heldStore : Option Reply
  heldCommand : Option Reply
  zoneAddress : Nat
  now : Moment
  pending : List Instr
deriving DecidableEq, Repr

/-- The faults that stop the part: none. Every command has an effect, or is ignored, discarded or
refused by a reply, as the rules say; so no step faults (safe). -/
inductive Fault
deriving DecidableEq, Repr

/-- The refusals of a step. -/
inductive Refusal
  /-- Raised by an arm of exec whose command has no meaning yet; safe, and no arm raises it. -/
  | notModelled (mnemonic : String)
deriving DecidableEq, Repr

/-! ### The state after reset -/

/-- The empty set of limit causes. -/
def CauseSet.empty : CauseSet := ⟨false, false, false, false, false, false, false, false⟩

/-- The empty demand list (R45). -/
def DemandList.empty : DemandList := ⟨PerSource.const none, none, none⟩

/-- No run of any level (R157). -/
def Runs.none : Runs := ⟨Option.none, Option.none, Option.none⟩

/-- A channel after POWER_ON that ends at a moment t (R45, R66, R78, R94, R118, R141). -/
def ChannelState.atReset (t : Moment) : ChannelState :=
  { demand := ⟨DemandList.empty, none, false⟩
    arb := ⟨none, .off, CauseSet.empty, CauseSet.empty⟩
    sense := ⟨0, false, false, 0, .voltage⟩
    prot := ⟨0, .ready, 0, none, 0, .since t, 0, false, false, false, t⟩
    sw := ⟨.off, .off, none, none⟩ }

/-- The supervisor after POWER_ON that ends at a moment t (R94, R157). -/
def Supervisor.atReset (t : Moment) : Supervisor :=
  { heat := 0, lastTick := t, voltageLevel := 0, low := Runs.none, recovery := Runs.none, hold := false,
    high := none, release := none, latest := none, thermalLevel := 0, dwellStart := t,
    floors := PerSource.const none, level := 0 }

/-- A port after a reset that ends at a moment t (R181, R201). -/
def PortRecord.atReset (t : Moment) : PortRecord := ⟨.online, [], none, none, t⟩

/-- A line after a reset that ends at a moment t, from the level at its pin and whether that level is
the ACTIVE one (R167). -/
def LineRecord.atReset (t : Moment) (high raw : Bool) : LineRecord :=
  ⟨high, false, if raw then some t else none⟩

/-- The part right after POWER_ON of a part as delivered, every pin low: the image fails its check, so
the defaults are loaded and CONFIG_DEFAULTED is on record (R17, R18, R179). What the pins hold, the
contents of the delivered image and the start of the clock are the model's (log 1, log 9, log 10). -/
def State.reset : State :=
  { cfg := WorkingConfig.default
    image := StoredImage.delivered
    store := .idle
    resetCause := .powerOn
    chans := Vector.replicate 16 (ChannelState.atReset 0)
    lapsed := PerSource.const false
    graceStart := some 0
    scan := ⟨0, 0, 0⟩
    queue := ⟨[], [], none⟩
    gens := Vector.replicate 4 ⟨0, .stopped⟩
    sup := Supervisor.atReset 0
    lines := ⟨Vector.replicate 4 (LineRecord.atReset 0 false false), LineRecord.atReset 0 false true,
      LineRecord.atReset 0 false false⟩
    latch := false
    faults :=
      { records := [⟨.configDefaulted, 0, 0, 1, false⟩], overflow := false, uptime := 0, secondStart := 0
        together := ⟨0, ⟨[], false⟩, [⟨0, [.occur .configDefaulted]⟩]⟩ }
    portA := PortRecord.atReset 0
    portB := PortRecord.atReset 0
    heldStore := none
    heldCommand := none
    zoneAddress := 0
    now := 0
    pending := [] }

end Sys2Proof.Machine
end

