-- ==== Sys2Proof/Machine/Ops.lean ====
section
/-! DEFINITION. The named operations over the state that every block uses: time, access to a channel's
records, the demand list, the classes, and reports to the fault list. -/

namespace Sys2Proof.Machine

/-! ### Time (log 1, log 2) -/

/-- The state at the moment t, or at the present moment where that is later: a timed event is taken
when it falls due, or late (log 2). -/
def State.advanceTo (s : State) (t : Moment) : State := { s with now := max s.now t }

/-! ### A channel's records -/

/-- All that the blocks keep for channel c. -/
def State.chan (s : State) (c : Channel) : ChannelState := s.chans[c]

/-- The state with channel c replaced. -/
def State.setChan (s : State) (c : Channel) (x : ChannelState) : State := { s with chans := s.chans.set c x }

/-- The state with the demand record of channel c changed. -/
def State.withDemand (s : State) (c : Channel) (f : DemandRecord → DemandRecord) : State :=
  s.setChan c { s.chan c with demand := f (s.chan c).demand }

/-- The state with the arbitration record of channel c changed. -/
def State.withArb (s : State) (c : Channel) (f : ArbRecord → ArbRecord) : State :=
  s.setChan c { s.chan c with arb := f (s.chan c).arb }

/-- The state with the sense record of channel c changed. -/
def State.withSense (s : State) (c : Channel) (f : SenseRecord → SenseRecord) : State :=
  s.setChan c { s.chan c with sense := f (s.chan c).sense }

/-- The state with the protection record of channel c changed. -/
def State.withProt (s : State) (c : Channel) (f : ProtRecord → ProtRecord) : State :=
  s.setChan c { s.chan c with prot := f (s.chan c).prot }

/-- The state with the switch record of channel c changed. -/
def State.withSwitch (s : State) (c : Channel) (f : SwitchRecord → SwitchRecord) : State :=
  s.setChan c { s.chan c with sw := f (s.chan c).sw }

/-- The profile of channel c in the working configuration (R3). -/
def State.profile (s : State) (c : Channel) : Profile := s.cfg.profile[c]

/-! ### Ports (R181) -/

/-- The record of a port. -/
def State.port (s : State) : Port → PortRecord
  | .a => s.portA
  | .b => s.portB

/-- The state with the record of a port replaced. -/
def State.setPort (s : State) (p : Port) (r : PortRecord) : State :=
  match p with
  | .a => { s with portA := r }
  | .b => { s with portB := r }

/-- The port is ONLINE. -/
def PortRecord.online (p : PortRecord) : Bool := decide (p.link = .online)

/-! ### Sources and classes -/

/-- The source number (00 section 4). -/
def NetSource.code : NetSource → Nat
  | .cab => 1
  | .body => 2
  | .drive => 3
  | .service => 4

/-- The source number (00 section 4). -/
def Source.code : Source → Nat
  | .net s => NetSource.code s
  | .line => 5
  | .fallback => 6

/-- The value of a class (00 section 4). -/
def Class.code : Class → Nat
  | .comfort => 1
  | .duty => 2
  | .safety => 3
  | .force => 4

/-- SAFETY or FORCE: the classes no shedding reaches (R56, R57) and the front group holds (R124). -/
def Class.high : Class → Bool
  | .safety => true
  | .force => true
  | .comfort => false
  | .duty => false

/-! ### The demand list (R23) -/

/-- The entry of a source. -/
def DemandList.get (l : DemandList) : Source → Option Entry
  | .net s => l.net.get s
  | .line => l.line
  | .fallback => l.fallback

/-- The list with one source's entry replaced, or removed. -/
def DemandList.put (l : DemandList) (src : Source) (e : Option Entry) : DemandList :=
  match src with
  | .net s => { l with net := l.net.set s e }
  | .line => { l with line := e }
  | .fallback => { l with fallback := e }

/-- The six sources in ascending number. -/
def allSources : List Source := [.net .cab, .net .body, .net .drive, .net .service, .line, .fallback]

/-- The entries present, in ascending source number (R23, R43). -/
def DemandList.entries (l : DemandList) : List (Source × Entry) :=
  allSources.filterMap fun src => (l.get src).map fun e => (src, e)

/-- The list holds an entry of CAB, BODY, DRIVE or SERVICE (R35). -/
def DemandList.hasNetwork (l : DemandList) : Bool := allNetSources.any fun s => (l.net.get s).isSome

/-- What R44 compares of a command: a pulse timer's running time is no field of the list. -/
def EntryCommand.content : EntryCommand → EntryCommand
  | .pulse n (.running _) => .pulse n (.running 0)
  | .pulse n .spent => .pulse n .spent
  | .ask a => .ask a

/-- What R44 compares of an entry: all but its deadline. -/
def Entry.content (e : Entry) : Entry := { e with command := e.command.content, deadline := none }

/-- What R44 compares of a list. -/
def DemandList.content (l : DemandList) : DemandList :=
  { net := ⟨l.net.cab.map Entry.content, l.net.body.map Entry.content, l.net.drive.map Entry.content,
      l.net.service.map Entry.content⟩
    line := l.line.map Entry.content
    fallback := l.fallback.map Entry.content }

/-- The list has changed for R44. -/
def DemandList.differs (old new : DemandList) : Bool := decide (old.content ≠ new.content)

/-! ### Limit-cause sets (R46, R63) -/

/-- A set holds a cause. -/
def CauseSet.has (t : CauseSet) : LimitCause → Bool
  | .lockout => t.lockout
  | .protect => t.protect
  | .emergency => t.emergency
  | .overvoltage => t.overvoltage
  | .shed => t.shed
  | .derate => t.derate
  | .refused => t.refused
  | .lapse => t.lapse

/-- A set with a cause added. -/
def CauseSet.add (t : CauseSet) : LimitCause → CauseSet
  | .lockout => { t with lockout := true }
  | .protect => { t with protect := true }
  | .emergency => { t with emergency := true }
  | .overvoltage => { t with overvoltage := true }
  | .shed => { t with shed := true }
  | .derate => { t with derate := true }
  | .refused => { t with refused := true }
  | .lapse => { t with lapse := true }

/-- The union of two sets. -/
def CauseSet.union (t u : CauseSet) : CauseSet :=
  ⟨t.lockout || u.lockout, t.protect || u.protect, t.emergency || u.emergency, t.overvoltage || u.overvoltage,
    t.shed || u.shed, t.derate || u.derate, t.refused || u.refused, t.lapse || u.lapse⟩

/-- A cause added to the log of channel c (R63). -/
def State.logCause (s : State) (c : Channel) (k : LimitCause) : State :=
  s.withArb c fun a => { a with log := a.log.add k }

/-! ### Reports to the fault list (chapter 10) -/

/-- The cause is an event: its records are PASSIVE (R168). -/
def FaultKey.isEvent : FaultKey → Bool
  | .overloadTrip _ => true
  | .shortTrip _ => true
  | .configDefaulted => true
  | .storeFailed => true
  | .lockout _ => false
  | .openLoadOn _ => false
  | .openLoadOff _ => false
  | .shortToSupply _ => false
  | .sourceLapsed _ => false
  | .supplyLow => false
  | .supplyHigh => false
  | .feederWarm => false
  | .emergency => false

/-- A record counted again (R172). -/
def FaultRecord.again (r : FaultRecord) (uptime : Nat) : FaultRecord :=
  { r with count := min 255 (r.count + 1), last := uptime, active := !r.key.isEvent }

/-- A new record (R173). -/
def FaultRecord.fresh (k : FaultKey) (uptime : Nat) : FaultRecord := ⟨k, uptime, uptime, 1, !k.isEvent⟩

/-- The record may be removed to make room: it is PASSIVE (R173), and not held by a report that falls together with the
one that needs room (R175; log 29). -/
def FaultRecord.removable (r : FaultRecord) (held : List FaultKey) : Bool := !r.active && !held.contains r.key

/-- An occurrence arrives at an uptime: counted in the record with its key (R172), or kept in a new record, for which
the oldest record that may be removed makes room, or dropped (R173). -/
def FaultRecords.occur (l : FaultRecords) (uptime : Nat) (held : List FaultKey) (k : FaultKey) : FaultRecords :=
  if l.records.any (fun r => r.key == k) then
    { l with records := l.records.map fun r => if r.key = k then r.again uptime else r }
  else if l.records.length < 16 then
    { l with records := l.records ++ [FaultRecord.fresh k uptime] }
  else if l.records.any (fun r => r.removable held) then
    { l with records := l.records.eraseP (fun r => r.removable held) ++ [FaultRecord.fresh k uptime] }
  else
    { l with overflow := true }

/-- The end of a condition arrives: its record becomes PASSIVE (R174). -/
def FaultRecords.finish (l : FaultRecords) (k : FaultKey) : FaultRecords :=
  { l with records := l.records.map fun r => if r.key = k then { r with active := false } else r }

/-- One report is taken (R172 to R174). -/
def FaultRecords.take (l : FaultRecords) (uptime : Nat) (held : List FaultKey) : Report → FaultRecords
  | .occur k => l.occur uptime held k
  | .finish k => l.finish k

/-- The reports of one event are taken one after the other, each against the list as the one before it left it
(R171). -/
def FaultRecords.takeEvent (l : FaultRecords) (held : List FaultKey) (e : EventReports) : FaultRecords :=
  e.reports.foldl (fun l r => l.take e.uptime held r) l

/-- The key of an occurrence. -/
def Report.key? : Report → Option FaultKey
  | .occur k => some k
  | .finish _ => none

/-- The keys of the occurrences among the reports of an event. -/
def EventReports.keys (e : EventReports) : List FaultKey := e.reports.filterMap Report.key?

/-- The record that a report taken on the list holds against those that fall together with it: the one it counts (R175,
last sentence), or the one it puts in place of a removed record (R175, first row). One that found room in a list of fewer
than 16 is not held, and R173 alone decides of it (R175, each against the list as the other left it). -/
def FaultRecords.holds (l : FaultRecords) : Report → List FaultKey
  | .occur k => if l.records.any (fun r => r.key == k) || decide (16 ≤ l.records.length) then [k] else []
  | .finish _ => []

/-- The records that the reports of an event hold, each report taken on the list as the one before it left it. -/
def FaultRecords.holdsAll (l : FaultRecords) (uptime : Nat) (held : List FaultKey) : List Report → List FaultKey
  | [] => []
  | r :: rs => l.holds r ++ (l.take uptime held r).holdsAll uptime held rs

/-- Events whose reports fall together are taken in their order, each against the list as the one before it left it. A
record that one event holds makes no room for another: a second new occurrence is dropped where the first took the place
of the one PASSIVE record of a full list (R175, first row), and a record is counted also where a new occurrence taken
before it would have removed it (R175, last sentence). -/
def FaultRecords.takeAll (l : FaultRecords) (earlier : List FaultKey) : List EventReports → FaultRecords
  | [] => l
  | e :: later =>
    let held := earlier ++ later.flatMap EventReports.keys
    (l.takeEvent held e).takeAll (earlier ++ l.holdsAll e.uptime held e.reports) later

/-- The list after the reports that fall together (R175). -/
def Together.after (b : Together) : FaultRecords := b.before.takeAll [] b.events

/-- The records and the overflow flag of the list. -/
def FaultList.contents (l : FaultList) : FaultRecords := ⟨l.records, l.overflow⟩

/-- The list as it stands is what the next reports of the moment find. -/
def FaultList.settle (l : FaultList) (t : Moment) : FaultList := { l with together := ⟨t, l.contents, []⟩ }

/-- The events whose reports have reached the list at a moment, with one more. -/
def FaultList.joined (l : FaultList) (t : Moment) (e : EventReports) : Together :=
  if l.together.moment = t then { l.together with events := l.together.events ++ [e] } else ⟨t, l.contents, [e]⟩

/-- The reports of one event reach the fault list at a moment. Those of another event of the same 0.1 ms fall together with
them, and the list is then what R175 makes of all of them; at any other moment they are taken by R172 to R174 against
the list as it stands (log 29, log 30). -/
def FaultList.report (l : FaultList) (t : Moment) (reports : List Report) : FaultList :=
  if reports = [] then l
  else
    let b := l.joined t ⟨l.uptime, reports⟩
    { l with records := b.after.records, overflow := b.after.overflow, together := b }

/-- An event whose one report is an occurrence. -/
def FaultList.occur (l : FaultList) (t : Moment) (k : FaultKey) : FaultList := l.report t [.occur k]

/-- An event whose one report is the end of a condition. -/
def FaultList.finish (l : FaultList) (t : Moment) (k : FaultKey) : FaultList := l.report t [.finish k]

/-- The reports of an event reach the fault list at the present moment (R171). -/
def State.report (s : State) (reports : List Report) : State := { s with faults := s.faults.report s.now reports }

/-- An occurrence is reported to the fault list (R171). -/
def State.occur (s : State) (k : FaultKey) : State := { s with faults := s.faults.occur s.now k }

/-- The end of a condition is reported to the fault list (R171). -/
def State.finish (s : State) (k : FaultKey) : State := { s with faults := s.faults.finish s.now k }

end Sys2Proof.Machine
end

