-- ==== Sys2Proof/Machine/Operands.lean ====
section
/-! DEFINITION. The operands of a frame: whether a port accepts it and whose it is (R182, R183), the command its arrival
is (R185 to R187), the codes of a DEMAND frame (R184), and the argument bytes of a COMMAND frame (R187). -/

namespace Sys2Proof.Machine

/-! ### Identifiers (R182, R183) -/

/-- The port a network source sends on (R182). -/
def NetSource.port : NetSource → Port
  | .cab => .a
  | .body => .a
  | .drive => .b
  | .service => .a

/-- The base identifier of a zone address (R182). -/
def baseIdent (zoneAddress : Nat) : Nat := 0x300 + 0x40 * zoneAddress

/-- The network source by its place in the table of R182. -/
def senderAt : Nat → Option NetSource
  | 0 => some .cab
  | 1 => some .body
  | 2 => some .drive
  | 3 => some .service
  | _ => none

/-- The sender belongs to the port a frame arrived at (R183). -/
def senderOn (p : Port) (src : Option NetSource) : Option NetSource :=
  src.filter fun x => decide (NetSource.port x = p)

/-- The offset from the part's base of a data frame with an 11-bit identifier and eight data bytes that
arrives at an ONLINE port; none for any other frame (R183). -/
def State.frameOffset (s : State) (rx : RxHeader) : Option Nat :=
  if (s.port rx.port).online ∧ rx.extended = false ∧ rx.remote = false ∧ rx.length = 8
      ∧ baseIdent s.zoneAddress ≤ rx.ident then
    some (rx.ident - baseIdent s.zoneAddress)
  else none

/-- The sender of an accepted DEMAND frame (R182, R183). -/
def State.demandSender (s : State) (rx : RxHeader) : Option NetSource :=
  (s.frameOffset rx).bind fun n => senderOn rx.port (senderAt (n / 4))

/-- The group of a DEMAND frame: the identifier's distance from the base, within its sender's four (R182). -/
def State.demandGroup (s : State) (rx : RxHeader) : Fin 4 :=
  ⟨(rx.ident - baseIdent s.zoneAddress) % 4, Nat.mod_lt _ (by decide)⟩

/-- The sender of an accepted COMMAND frame (R182, R183). -/
def State.commandSender (s : State) (rx : RxHeader) : Option NetSource :=
  (s.frameOffset rx).bind fun n => if 16 ≤ n then senderOn rx.port (senderAt (n - 16)) else none

/-! ### The arrival of a frame (R183, R185, R186) -/

/-- The command that the arrival of a frame is: DEMAND, or the command whose code stands in byte 0 of a COMMAND frame; none
for a frame the port ignores (R183, R185, R187). -/
def State.frameCommand (s : State) (rx : RxHeader) (data : Vector Byte 8) : Option Instr :=
  if (s.demandSender rx).isSome then some (.demand rx data)
  else if (s.commandSender rx).isSome then some (commandOfFrame rx data)
  else none

/-- The arrival of a frame at its port: the command it is stands at the front of the queue and is taken next; an ignored
frame leaves no trace (R183; log 5). -/
def State.receive (s : State) (rx : RxHeader) (data : Vector Byte 8) : State :=
  match s.frameCommand rx data with
  | some i => { s with pending := i :: s.pending }
  | none => s

/-! ### The codes of a DEMAND frame (R184) -/

/-- The codes of a DEMAND frame (02 section 2.3). -/
inductive DemandCode
  | skip | release | off | on | dim | flash | pulse | renew
deriving DecidableEq, Repr

/-- What a DEMAND frame carries for one channel. -/
structure DemandItem where
  code : DemandCode
  classField : Nat
  argument : Nat
deriving DecidableEq, Repr

/-- The code a number 0 to 7 stands for (R184). -/
def demandCode : Nat → DemandCode
  | 0 => .skip
  | 1 => .release
  | 2 => .off
  | 3 => .on
  | 4 => .dim
  | 5 => .flash
  | 6 => .pulse
  | _ => .renew

/-- The item of channel 4g + i: byte 2i holds code and class field, byte 2i + 1 the argument (R184). -/
def demandItem (data : Vector Byte 8) (i : Fin 4) : DemandItem :=
  let b := (data[2 * i.val]'(by omega)).toNat
  { code := demandCode (b % 8)
    classField := b / 8 % 4
    argument := (data[2 * i.val + 1]'(by omega)).toNat }

/-- Channel 4g + i. -/
def groupChannel (g i : Fin 4) : Channel := ⟨4 * g.val + i.val, by omega⟩

/-- The four places of a group in ascending order. -/
def groupPlaces : List (Fin 4) := [0, 1, 2, 3]

/-! ### Argument bytes (R184, R187) -/

/-- Argument byte k of a COMMAND frame, 1 to 7, as a number; args holds them from byte 1. -/
def argByte (args : Vector Byte 7) (k : Fin 7) : Nat := args[k].toNat

/-- A value of two bytes, low byte first (R184). -/
def argWord (args : Vector Byte 7) (low high : Fin 7) : Nat := argByte args low + 256 * argByte args high

end Sys2Proof.Machine
end

