-- ==== Sys2Proof/Machine/Switch.lean ====
section
/-! DEFINITION. The switch controller (chapter 7): output states and what they report, the switch-on queue,
inrush and allowance, periods, flash patterns, and the events of its timers. -/

namespace Sys2Proof.Machine

/-! ### Conduction -/

/-- INRUSH or RUNNING. -/
def OutState.isOn : OutState → Bool
  | .off => false
  | .waiting => false
  | .inrush _ => true
  | .steady _ _ => true
  | .pwm _ _ _ _ => true
  | .flash _ => true

/-- RUNNING, in any mode. -/
def OutState.isRunning : OutState → Bool
  | .off => false
  | .waiting => false
  | .inrush _ => false
  | .steady _ _ => true
  | .pwm _ _ _ _ => true
  | .flash _ => true

/-- The on-time of a period of Tp tenths of a millisecond at a duty (R72, R82, R133). -/
def onTimeOf (period duty : Nat) : Nat := (period * duty + 500) / 1000

/-- The effective on-time: whole period off, whole period on, or the on-time (R72, R133). -/
def effectiveOn (period onTime : Nat) : Nat :=
  if onTime < 2 then 0 else if period - onTime < 2 then period else onTime

/-- The pattern is in ON_PHASE (R136). -/
def Generator.isOn (g : Generator) : Bool :=
  match g.state with
  | .running .on _ _ _ => true
  | .running .off _ _ _ => false
  | .stopped => false

/-- Pattern p is in ON_PHASE. -/
def State.patternOn (s : State) (p : Pattern) : Bool := s.gens[p].isOn

/-- The sample kind that follows from a channel's output state, mode and phase (R69); for RUNNING PWM the
period's start, effective on-time and midpoint (R72). -/
def State.kindFor (s : State) (c : Channel) : OutState → SampleKind
  | .off => .voltage
  | .waiting => .voltage
  | .inrush _ => .current
  | .steady _ _ => .current
  | .pwm _ onTime _ start =>
    .periodic start (effectiveOn (s.profile c).period onTime) (decide (5 ≤ effectiveOn (s.profile c).period onTime))
  | .flash p => if s.patternOn p then .current else .voltage

/-- The gate output of channel c at the present moment (R120, R133). -/
def State.gateOn (s : State) (c : Channel) : Bool :=
  match (s.chan c).sw.out with
  | .off => false
  | .waiting => false
  | .inrush _ => true
  | .steady _ _ => true
  | .pwm _ onTime _ start =>
    if onTime < 2 then false
    else if (s.profile c).period - onTime < 2 then true
    else decide (s.now - start < onTime)
  | .flash p => s.patternOn p

/-- The conduction fraction c of a channel in per mille (R81, R82). -/
def State.conduction (s : State) (c : Channel) : Nat :=
  match (s.chan c).sw.out with
  | .off => 0
  | .waiting => 0
  | .inrush _ => 1000
  | .steady _ _ => 1000
  | .pwm _ onTime _ _ =>
    let period := (s.profile c).period
    if onTime < 2 then 0 else if period - onTime < 2 then 1000 else 1000 * onTime / period
  | .flash p => if s.patternOn p then 1000 else 0

/-- The diagnostic pull-up is applied to the output of channel c (R113). -/
def State.pullUpApplied (s : State) (c : Channel) : Bool :=
  decide ((s.chan c).sw.out = .off) && (s.profile c).pulls

/-! ### The reports of R140 -/

/-- What the scanner does with a report: the new sample kind (R69), and at a switch-on the marks of R73. -/
def SenseRecord.report (r : SenseRecord) (kind : SampleKind) (switchOn : Bool) : SenseRecord :=
  { r with kind := kind, valid := r.valid && !switchOn, saturated := r.saturated && !switchOn }

/-- What the protection unit does with a change of output state at a moment t (R140): entry to OFF
(R107, R113), switch-on (R107, R112, R113), leaving OFF for WAITING (R113). -/
def ProtRecord.report (p : ProtRecord) (t : Moment) (old new : OutState) : ProtRecord :=
  if new = .off then
    if old = .off then p else { p with offWait := .since t, stableRun := none }
  else if !old.isOn && new.isOn then
    { p with stableRun := some t, offWait := .cleared, offCount := 0, onCount := 0 }
  else if old = .off then
    { p with offWait := .cleared, offCount := 0 }
  else p

/-- The output state of channel c becomes out, and the change is reported to the sense scanner and to
the protection unit (R140). -/
def State.setOut (s : State) (c : Channel) (out : OutState) : State :=
  let x := s.chan c
  s.setChan c
    { x with
      sw := { x.sw with out := out }
      sense := x.sense.report (s.kindFor c out) (!x.sw.out.isOn && out.isOn)
      prot := x.prot.report s.now x.sw.out out }

/-! ### Allowance and inrush window (R129, R130) -/

/-- The allowance timer of channel c is started at the inrush window, from the present 0.1 ms (R119, R130; log 28). -/
def State.startAllowance (s : State) (c : Channel) : State :=
  s.withSwitch c fun w => { w with allowance := some (s.now + (s.profile c).windowLength) }

/-- The allowance a start of an ON_PHASE gives: to kind LAMP or MOTOR with a window above 0 (R130). -/
def State.phaseAllowance (s : State) (c : Channel) : State :=
  if (s.profile c).queueUsing then s.startAllowance c else s

/-- The allowance timer of channel c is dropped (R123). -/
def State.dropAllowance (s : State) (c : Channel) : State :=
  s.withSwitch c fun w => { w with allowance := none }

/-- Entry to INRUSH: inrush timer and allowance timer started at the inrush window, from the present 0.1 ms (R119,
R122, R126, R135; log 28). -/
def State.enterInrush (s : State) (c : Channel) : State :=
  (s.setOut c (.inrush (s.now + (s.profile c).windowLength))).startAllowance c

/-! ### Flash patterns (R136, R137) -/

/-- The state with generator p replaced. -/
def State.setGen (s : State) (p : Pattern) (g : Generator) : State := { s with gens := s.gens.set p g }

/-- A generator at a start of its ON_PHASE: times latched from the pattern table, phase timer at the on
time (R137). -/
def State.latched (s : State) (p : Pattern) : GenState :=
  let on := 100 * s.cfg.pattern[p].onTime
  .running .on (s.now + on) on (100 * s.cfg.pattern[p].offTime)

/-- Channel c is RUNNING FLASH on pattern p. -/
def State.uses (s : State) (p : Pattern) (c : Channel) : Bool := decide ((s.chan c).sw.out = .flash p)

/-- The users of a pattern in ascending channel number. -/
def State.usersOf (s : State) (p : Pattern) : List Channel := allChannels.filter (s.uses p)

/-- A change of phase is reported to the sense scanner for channel c (R69, R137). -/
def State.reportPhase (s : State) (c : Channel) : State :=
  s.withSense c fun r => r.report (s.kindFor c (s.chan c).sw.out) false

/-- A start of an ON_PHASE of a running pattern: the users' gates are driven on together and the lamps
and motors among them get their allowance (R130, R137). -/
def State.startOnPhase (s : State) (p : Pattern) : State :=
  (s.usersOf p).foldl (fun t c => (t.reportPhase c).phaseAllowance c)
    (s.setGen p { s.gens[p] with state := s.latched p })

/-- Channel c joins pattern p and is RUNNING FLASH on it; the first user starts the pattern, and a join in
ON_PHASE starts the channel's allowance (R130, R136). -/
def State.joinPattern (s : State) (c : Channel) (p : Pattern) : State :=
  let g := s.gens[p]
  let s := (s.setGen p ⟨g.users + 1, if g.users = 0 then s.latched p else g.state⟩).setOut c (.flash p)
  if s.patternOn p then s.phaseAllowance c else s

/-- A channel leaves pattern p; the last user stops it (R136). -/
def State.leavePattern (s : State) (p : Pattern) : State :=
  let g := s.gens[p]
  s.setGen p ⟨g.users - 1, if g.users ≤ 1 then .stopped else g.state⟩

/-! ### Periods (R131 to R133) -/

/-- A period of channel c begins with the staged output loaded (R131, R132). -/
def State.startPeriod (s : State) (c : Channel) : Staged → State
  | .steady => s.setOut c (.steady .steady s.now)
  | .pwm d => s.setOut c (.pwm d (onTimeOf (s.profile c).period d) (.pwm d) s.now)

/-- A granted STEADY or PWM is staged for the next boundary (R132). -/
def OutState.stage (o : OutState) (g : Staged) : OutState :=
  match o with
  | .steady _ start => .steady g start
  | .pwm d n _ start => .pwm d n g start
  | .off => .off
  | .waiting => .waiting
  | .inrush t => .inrush t
  | .flash p => .flash p

/-! ### The switch-on queue (R124 to R127) -/

/-- The head of the queue (R124). -/
def SwitchQueue.head (q : SwitchQueue) : Option Channel :=
  match q.front with
  | c :: _ => some c
  | [] => q.back.head?

/-- The number of waiting channels. -/
def SwitchQueue.size (q : SwitchQueue) : Nat := q.front.length + q.back.length

/-- The queue without channel c; the channels behind it move up (R123). -/
def SwitchQueue.remove (q : SwitchQueue) (c : Channel) : SwitchQueue :=
  { q with front := q.front.erase c, back := q.back.erase c }

/-- A winning class puts a waiting channel into the front group (R124). -/
def inFrontGroup (cls : Option Class) : Bool :=
  match cls with
  | some k => Class.high k
  | none => false

/-- The queue with channel c at the tail of the group of its class (R124). -/
def SwitchQueue.join (q : SwitchQueue) (c : Channel) (cls : Option Class) : SwitchQueue :=
  if inFrontGroup cls then { q with front := q.front ++ [c] } else { q with back := q.back ++ [c] }

/-- Channel c stands in the group of the class. -/
def SwitchQueue.stands (q : SwitchQueue) (c : Channel) (cls : Option Class) : Bool :=
  if inFrontGroup cls then q.front.contains c else q.back.contains c

/-- The admission condition (R125). -/
def State.admissionDue (s : State) : Bool :=
  s.queue.head.isSome &&
    match s.queue.lastAdmission with
    | none => true
    | some t => decide (t + 10 * s.cfg.zone.admissionInterval ≤ s.now)

/-- The admission of the head of the queue (R126). -/
def State.admitHead (s : State) : State :=
  match s.queue.head with
  | none => s
  | some c => ({ s with queue := { s.queue.remove c with lastAdmission := some s.now } }).enterInrush c

/-- At most n admissions, each while the admission condition holds (R125). -/
def State.admitUpTo : Nat → State → State
  | 0, s => s
  | n + 1, s => if s.admissionDue then State.admitUpTo n s.admitHead else s

/-- The test of the admission condition: while it holds the head is admitted (R125). -/
def State.admitQueued (s : State) : State := s.admitUpTo s.queue.size

/-- The state with channel c taken out of the queue. -/
def State.unqueue (s : State) (c : Channel) : State := { s with queue := s.queue.remove c }

/-- Channel c moves to WAITING at the tail of the group of its winning class, and the admission
condition is tested (R122, R124). -/
def State.joinQueue (s : State) (c : Channel) : State :=
  let s := { s with queue := s.queue.join c (s.chan c).sw.cls }
  (s.setOut c .waiting).admitQueued

/-- A waiting channel whose winning class has changed group moves to the tail of the other group; where
that changes the head, the admission condition is tested (R127). -/
def State.regroup (s : State) (c : Channel) : State :=
  let cls := (s.chan c).sw.cls
  if s.queue.stands c cls then s
  else
    let t := { s with queue := (s.queue.remove c).join c cls }
    if t.queue.head = s.queue.head then t else t.admitQueued

/-! ### Taking a hand-over (R121 to R123, R127, R135) -/

/-- A granted OFF ends the output at once, from any output state (R123). -/
def State.turnOff (s : State) (c : Channel) : State :=
  match (s.chan c).sw.out with
  | .off => s
  | .waiting => (((s.unqueue c).setOut c .off).dropAllowance c).admitQueued
  | .inrush _ => (s.setOut c .off).dropAllowance c
  | .steady _ _ => (s.setOut c .off).dropAllowance c
  | .pwm _ _ _ _ => (s.setOut c .off).dropAllowance c
  | .flash p => ((s.leavePattern p).setOut c .off).dropAllowance c

/-- Channel c enters RUNNING in the mode of a granted output (R122, R129, R135). A granted OFF turns it
off; no entry is made with one. -/
def State.enterRunning (s : State) (c : Channel) : Granted → State
  | .off => s.turnOff c
  | .steady => s.startPeriod c .steady
  | .pwm d => s.startPeriod c (.pwm d)
  | .flash p => s.joinPattern c p

/-- Channel c leaves OFF for a granted output, by the first line of R122's table that applies. -/
def State.leaveOff (s : State) (c : Channel) (g : Granted) : State :=
  match g with
  | .flash p => s.joinPattern c p
  | g =>
    if (s.profile c).queueUsing then
      if 0 < s.cfg.zone.admissionInterval then s.joinQueue c
      else ({ s with queue := { s.queue with lastAdmission := some s.now } }).enterInrush c
    else if 0 < (s.profile c).window then s.enterInrush c
    else s.enterRunning c g

/-- A channel in RUNNING FLASH on p is granted STEADY or PWM (R135). -/
def State.leaveFlash (s : State) (c : Channel) (p : Pattern) (g : Granted) : State :=
  let t := s.leavePattern p
  if !s.patternOn p && (s.profile c).queueUsing then t.enterInrush c else t.enterRunning c g

/-- What the switch controller does with a granted output, by the output state (R121). -/
def State.actOn (s : State) (c : Channel) (g : Granted) : State :=
  match (s.chan c).sw.out, g with
  | .off, .off => s
  | .off, g => s.leaveOff c g
  | _, .off => s.turnOff c
  | .waiting, .flash p => ((s.unqueue c).joinPattern c p).admitQueued
  | .waiting, _ => s.regroup c
  | .inrush _, _ => s
  | .flash p, .flash q => if p = q then s else (s.leavePattern p).joinPattern c q
  | .flash p, g => s.leaveFlash c p g
  | _, .flash p => s.joinPattern c p
  | o, .steady => s.withSwitch c fun w => { w with out := o.stage .steady }
  | o, .pwm d => s.withSwitch c fun w => { w with out := o.stage (.pwm d) }

/-- The hand-over of a granted output and a winning class: recorded, and acted on by the output state (R121). -/
def State.handOver (s : State) (c : Channel) (g : Granted) (cls : Option Class) : State :=
  (s.withSwitch c fun w => { w with granted := g, cls := cls }).actOn c g

/-! ### The events of the switch controller's timers -/

/-- ADMISSION: the time since the last admission reaches the interval, and the head of the queue is
admitted (R125, R126). Nothing where no channel waits (log 3). -/
def execAdmission (s : State) : Host.Outcome State Fault Refusal :=
  .next <|
    match s.queue.head, s.queue.lastAdmission with
    | none, _ => s
    | some _, none => s.admitQueued
    | some _, some t => (s.advanceTo (t + 10 * s.cfg.zone.admissionInterval)).admitQueued

/-- INRUSH_TIMER_EXPIRY: the window ends, and the channel moves to RUNNING in the mode of the granted
output recorded (R129). Nothing where no inrush timer runs (log 3). -/
def execInrushTimerExpiry (c : Channel) (s : State) : Host.Outcome State Fault Refusal :=
  .next <|
    match (s.chan c).sw.out with
    | .inrush ends => (s.advanceTo ends).enterRunning c (s.chan c).sw.granted
    | _ => s

/-- ALLOWANCE_TIMER_EXPIRY: the timer becomes none and the allowance ends (R130). Nothing where no
allowance timer runs (log 3). -/
def execAllowanceTimerExpiry (c : Channel) (s : State) : Host.Outcome State Fault Refusal :=
  .next <|
    match (s.chan c).sw.allowance with
    | some ends => (s.advanceTo ends).dropAllowance c
    | none => s

/-- The period boundary of a period that began at a moment, with its staged output (R131, R132). -/
def State.boundary (s : State) (c : Channel) (staged : Staged) (start : Moment) : State :=
  (s.advanceTo (start + (s.profile c).period)).startPeriod c staged

/-- PERIOD_BOUNDARY: the staged output is loaded, and the boundary is reported (R131, R132). Nothing where
no period runs (log 3). -/
def execPeriodBoundary (c : Channel) (s : State) : Host.Outcome State Fault Refusal :=
  .next <|
    match (s.chan c).sw.out with
    | .steady staged start => s.boundary c staged start
    | .pwm _ _ staged start => s.boundary c staged start
    | _ => s

/-- PHASE_TIMER_EXPIRY: the pattern changes phase, and its users with it (R137). Nothing where the pattern
is STOPPED (log 3). -/
def execPhaseTimerExpiry (p : Pattern) (s : State) : Host.Outcome State Fault Refusal :=
  .next <|
    match s.gens[p].state with
    | .stopped => s
    | .running .off ends _ _ => (s.advanceTo ends).startOnPhase p
    | .running .on ends onTime offTime =>
      let s := s.advanceTo ends
      (s.usersOf p).foldl (fun t c => t.reportPhase c)
        (s.setGen p { s.gens[p] with state := .running .off (s.now + offTime) onTime offTime })

end Sys2Proof.Machine
end

