-- ==== Sys2Proof/Machine/Arbitration.lean ====
section
/-! DEFINITION. The arbitration unit (chapter 3): the winner, the limiter chain, the granted output, and the
evaluation of one channel and of all sixteen. -/

namespace Sys2Proof.Machine

/-! ### The winner (R51) -/

/-- The strength of a demand among those of equal class (R51). -/
def Ask.strength : Ask → Nat
  | .off => 0
  | .dim d => d
  | .flash _ => 1001
  | .on => 1002

/-- The strength of an entry's command; none for a SPENT pulse, which is no candidate (R51). -/
def EntryCommand.strength? : EntryCommand → Option Nat
  | .ask a => some a.strength
  | .pulse _ (.running _) => some 1002
  | .pulse _ .spent => none

/-- The command as the arbitration record copies it (R46). -/
def EntryCommand.won : EntryCommand → WonCommand
  | .ask a => .ask a
  | .pulse _ _ => .pulse

/-- A candidate with its strength. -/
structure Candidate where
  source : Source
  entry : Entry
  strength : Nat
deriving DecidableEq, Repr

/-- The candidates of a list in ascending source number (R51). -/
def DemandList.candidates (l : DemandList) : List Candidate :=
  l.entries.filterMap fun p => p.2.command.strength?.map fun n => ⟨p.1, p.2, n⟩

/-- A candidate wins over another that stands before it: by higher class, or by greater strength in the
same class (R51). -/
def Candidate.beats (a b : Candidate) : Bool :=
  decide (Class.code b.entry.cls < Class.code a.entry.cls)
    || (decide (Class.code a.entry.cls = Class.code b.entry.cls) && decide (b.strength < a.strength))

/-- The winner among candidates in ascending source number, so that the lower number keeps a tie (R51). -/
def pickWinner : List Candidate → Option Candidate
  | [] => none
  | a :: l => some (l.foldl (fun best x => if x.beats best then x else best) a)

/-- The winning entry of a list, as the arbitration record copies it (R46, R51). -/
def DemandList.winner (l : DemandList) : Option Winner :=
  (pickWinner l.candidates).map fun w => ⟨w.source, w.entry.cls, w.entry.command.won⟩

/-! ### The limiter chain (R52 to R60) -/

/-- An output in the limiter chain (R52). -/
inductive Output
  | off
  | steady
  | dim (duty : Nat)
  | flash (p : Pattern)
deriving DecidableEq, Repr

/-- The provisional output of a demand (R52). -/
def Ask.provisional : Ask → Output
  | .off => .off
  | .on => .steady
  | .dim d => .dim d
  | .flash p => .flash p

/-- The provisional output (R52). -/
def provisional : Option Winner → Output
  | none => .off
  | some ⟨_, _, .pulse⟩ => .steady
  | some ⟨_, _, .ask a⟩ => a.provisional

/-- What the limiter chain reads (R53): the protection state, latch and hold, the effective shed level,
the winning class and the profile. -/
structure LimitInputs where
  prot : ProtState
  latch : Bool
  hold : Bool
  level : Nat
  cls : Option Class
  profile : Profile
deriving DecidableEq, Repr

/-- The winning class is COMFORT or DUTY (R56, R57). -/
def lowClass (cls : Option Class) : Bool :=
  match cls with
  | some k => !Class.high k
  | none => false

/-- An output with the causes recorded so far. -/
structure Limited where
  out : Output
  causes : CauseSet
deriving DecidableEq, Repr

/-- A step that turns the output OFF and records its cause where a condition holds, and acts only on an
output that is not OFF (R53). -/
def Limited.cut (x : Limited) (cond : Bool) (k : LimitCause) : Limited :=
  if cond && decide (x.out ≠ .off) then ⟨.off, x.causes.add k⟩ else x

/-- TRIPPED, of either kind (R54). -/
def ProtState.tripped : ProtState → Bool
  | .trippedOverload => true
  | .trippedShort _ => true
  | .ready => false
  | .warm => false
  | .lockout _ => false

/-- LOCKOUT (R54). -/
def ProtState.locked : ProtState → Bool
  | .lockout _ => true
  | .ready => false
  | .warm => false
  | .trippedOverload => false
  | .trippedShort _ => false

/-- Step 1, protection (R54). -/
def limitProtection (i : LimitInputs) (x : Limited) : Limited :=
  (x.cut i.prot.tripped .protect).cut i.prot.locked .lockout

/-- Step 2, emergency (R55). -/
def limitEmergency (i : LimitInputs) (x : Limited) : Limited :=
  x.cut (i.latch && !i.profile.keeps) .emergency

/-- Step 3, overvoltage (R56). -/
def limitOvervoltage (i : LimitInputs) (x : Limited) : Limited :=
  x.cut (i.hold && lowClass i.cls) .overvoltage

/-- Step 4, shedding: the shed class is at or above 4 less L (R57). -/
def limitShed (i : LimitInputs) (x : Limited) : Limited :=
  x.cut (decide (4 ≤ i.profile.shedClass + i.level) && lowClass i.cls) .shed

/-- Step 5, derate (R58). -/
def limitDerate (i : LimitInputs) (x : Limited) : Limited :=
  if decide (i.prot = .warm) && i.profile.allowsPwm then
    match x.out with
    | .steady => if i.profile.cap < 1000 then ⟨.dim i.profile.cap, x.causes.add .derate⟩ else x
    | .dim d => if i.profile.cap < d then ⟨.dim i.profile.cap, x.causes.add .derate⟩ else x
    | .off => x
    | .flash _ => x
  else x

/-- Step 6, the conversion where PWM is forbidden (R59). -/
def limitConvert (i : LimitInputs) (x : Limited) : Limited :=
  if i.profile.allowsPwm then x
  else
    match x.out with
    | .dim d => if d = 1000 then { x with out := .steady } else if d < 1000 then { x with out := .off } else x
    | .off => x
    | .steady => x
    | .flash _ => x

/-- The limiter chain (R53). -/
def limitChain (i : LimitInputs) (o : Output) : Limited :=
  limitConvert i (limitDerate i (limitShed i (limitOvervoltage i (limitEmergency i
    (limitProtection i ⟨o, CauseSet.empty⟩)))))

/-- The form in which an output leaving the chain is granted (R60). -/
def Output.grant : Output → Granted
  | .off => .off
  | .steady => .steady
  | .dim d => if d = 0 then .off else if d = 1000 then .steady else .pwm d
  | .flash p => .flash p

/-! ### Evaluation (R48, R49) -/

/-- What an evaluation of channel c reads (R48). -/
def State.limitInputs (s : State) (c : Channel) (cls : Option Class) : LimitInputs :=
  ⟨(s.chan c).prot.state, s.latch, s.sup.hold, s.sup.level, cls, s.profile c⟩

/-- The last network winner after an evaluation: a network winner's own command, OFF for a pulse; kept
for any other winner and for none (R36). -/
def lastWinnerAfter (old : Option Ask) : Option Winner → Option Ask
  | some ⟨.net _, _, .ask a⟩ => some a
  | some ⟨.net _, _, .pulse⟩ => some .off
  | some ⟨.line, _, _⟩ => old
  | some ⟨.fallback, _, _⟩ => old
  | none => old

/-- What an evaluation of channel c would find: the winner and the result of the chain (R48 steps 1 to 4). -/
def State.judge (s : State) (c : Channel) : Option Winner × Limited :=
  let w := (s.chan c).demand.list.winner
  (w, limitChain (s.limitInputs c (w.map Winner.cls)) (provisional w))

/-- The records after an evaluation of channel c, before the hand-over (R48 steps 1 to 5). -/
def State.recordJudgement (s : State) (c : Channel) : State :=
  let j := s.judge c
  let x := s.chan c
  s.setChan c
    { x with
      demand := { x.demand with lastNetworkWinner := lastWinnerAfter x.demand.lastNetworkWinner j.1 }
      arb := ⟨j.1, j.2.out.grant, j.2.causes, x.arb.log.union j.2.causes⟩ }

/-- An evaluation of channel c: the records, and the hand-over where the pair differs from the one last
handed (R48, R61). -/
def State.evaluate (s : State) (c : Channel) : State :=
  let g := (s.judge c).2.out.grant
  let cls := (s.judge c).1.map Winner.cls
  let t := s.recordJudgement c
  if (t.chan c).sw.granted = g ∧ (t.chan c).sw.cls = cls then t else t.handOver c g cls

/-- Several channels evaluated in the order given (R44). -/
def State.evaluateEach (s : State) (l : List Channel) : State := l.foldl State.evaluate s

/-- All sixteen channels evaluated in ascending number (R49). -/
def State.evaluateAll (s : State) : State := s.evaluateEach allChannels

/-- The channels whose demand list differs from that in an earlier state, evaluated in ascending number,
after the event has changed every list it touches (R44). -/
def State.evaluateChanged (s before : State) : State :=
  s.evaluateEach (allChannels.filter fun c => (before.chan c).demand.list.differs (s.chan c).demand.list)

end Sys2Proof.Machine
end

