-- ==== Sys2Proof/Machine/Protection.lean ====
section
/-! DEFINITION. The heat model (chapter 5) and the protection unit (chapter 6): heat estimates and levels,
trips and exits, the short test, the diagnoses, and the events of the protection unit's timers. -/

namespace Sys2Proof.Machine

/-! ### The heat model (R79 to R88) -/

/-- The greatest value of a heat estimate (R79). -/
def heatMax : Nat := 4294967295

/-- The current ratio q of a current I in 10 mA and a nominal current N in 0.1 A, held at 1023 (R83); the
feeder's with I_f in 0.1 A and N_f in 1 A (R88). -/
def currentRatio (current nominal : Nat) : Nat := min 1023 (64 * current / (10 * nominal))

/-- The power term of a ratio q and a conduction fraction c (R84). -/
def powerTerm (q c : Nat) : Nat := q ^ 2 * c / 1000

/-- The update of a heat estimate with decay shift k and power term P (R85, R88). -/
def heatStep (shift power h : Nat) : Nat := min heatMax (h - h / 2 ^ shift + power)

/-- The warm level (R86). -/
def Profile.warmLevel (p : Profile) : Nat := p.warm * 2 ^ p.decayShift

/-- The trip level (R86). -/
def Profile.tripLevel (p : Profile) : Nat := p.trip * 2 ^ p.decayShift

/-- The warm-clear level (R86). -/
def Profile.clearLevel (p : Profile) : Nat := 7 * p.warm * 2 ^ p.decayShift / 8

/-- The rearm level (R86). -/
def Profile.rearmLevel (p : Profile) : Nat := p.warm * 2 ^ (p.decayShift - 1)

/-- The power term of channel c at an update: q from the sense record, or 64 while the mark is NONE, and
the conduction fraction (R81 to R84). -/
def State.powerOf (s : State) (c : Channel) : Nat :=
  let r := (s.chan c).sense
  powerTerm (if r.valid then currentRatio r.current (s.profile c).nominal else 64) (s.conduction c)

/-- The heat percentage (R92). -/
def State.heatPercent (s : State) (c : Channel) : Nat :=
  min 255 (100 * (s.chan c).prot.heat / Profile.tripLevel (s.profile c))

/-! ### Trips and exits (R96 to R105) -/

/-- READY or WARM. -/
def ProtState.free : ProtState → Bool
  | .ready => true
  | .warm => true
  | .trippedOverload => false
  | .trippedShort _ => false
  | .lockout _ => false

/-- The fault cause of a trip (R96). -/
def TripKind.key (k : TripKind) (c : Channel) : FaultKey :=
  match k with
  | .overload => .overloadTrip c
  | .short => .shortTrip c

/-- The state TRIPPED a trip at moment t leads to; a short trip starts the retry-delay timer (R98). -/
def TripKind.tripped (k : TripKind) (t delay : Moment) : ProtState :=
  match k with
  | .overload => .trippedOverload
  | .short => .trippedShort (.running (t + delay))

/-- A trip of channel c: TRIPPED while retries remain, LOCKOUT otherwise; the stable-run timer stops, and
the trip, and the beginning of LOCKOUT after it, are reported (R96, R98). -/
def State.trip (s : State) (c : Channel) (k : TripKind) : State :=
  let p := s.profile c
  if (s.chan c).prot.retries < p.retryLimit then
    (s.withProt c fun r => { r with state := k.tripped s.now p.retryLength, stableRun := none }).occur (k.key c)
  else
    (s.withProt c fun r => { r with state := .lockout k, stableRun := none }).report [.occur (k.key c), .occur (.lockout c)]

/-- An exit from TRIPPED: the retry counter rises up to the retry limit, and the state is WARM where H is
at or above the warm level, READY otherwise (R102, R104, R105). -/
def State.exitTrip (s : State) (c : Channel) : State :=
  let p := s.profile c
  s.withProt c fun r =>
    { r with
      state := if Profile.warmLevel p ≤ r.heat then .warm else .ready
      retries := if r.retries < p.retryLimit then r.retries + 1 else r.retries }

/-- The comparison step of a fuse tick: at most one move, by the levels as the profile gives them (R97). -/
def State.compareLevels (s : State) (c : Channel) : State :=
  let p := s.profile c
  let h := (s.chan c).prot.heat
  match (s.chan c).prot.state with
  | .ready =>
    if Profile.tripLevel p ≤ h then s.trip c .overload
    else if Profile.warmLevel p ≤ h then s.withProt c fun r => { r with state := .warm }
    else s
  | .warm =>
    if Profile.tripLevel p ≤ h then s.trip c .overload
    else if h < Profile.clearLevel p then s.withProt c fun r => { r with state := .ready }
    else s
  | .trippedOverload => if h < Profile.rearmLevel p then s.exitTrip c else s
  | .trippedShort .expired => if h < Profile.tripLevel p then s.exitTrip c else s
  | .trippedShort (.running _) => s
  | .lockout _ => s

/-- The evaluation a move of channel c's protection state since an earlier state causes (R47, R96). -/
def State.evaluateMoved (s before : State) (c : Channel) : State :=
  if (s.chan c).prot.state = (before.chan c).prot.state then s else s.evaluate c

/-- FUSE_TICK: comparison on H as it stands, update of H, then the evaluation of a move (R80). -/
def execFuseTick (c : Channel) (s : State) : Host.Outcome State Fault Refusal :=
  .next <|
    let s := s.advanceTo ((s.chan c).prot.lastTick + 10)
    let s := s.withProt c fun r => { r with lastTick := s.now }
    let t := s.compareLevels c
    (t.withProt c fun r =>
      { r with heat := heatStep (s.profile c).decayShift (s.powerOf c) r.heat }).evaluateMoved s c

/-! ### Samples (R99 to R101, R112 to R116) -/

/-- The inrush allowance of channel c is in force: until its expiry is taken (R101, R119; log 12). -/
def State.allowanceInForce (s : State) (c : Channel) : Bool := (s.chan c).sw.allowance.isSome

/-- The short test of R100. -/
def shortTest (inForce saturated : Bool) (q shortRatio : Nat) : Bool :=
  if inForce then !saturated && decide (min (2 * shortRatio) 1023 ≤ q)
  else saturated || decide (shortRatio ≤ q)

/-- The OPEN_LOAD_ON condition of channel c ends, where it is active (R112). -/
def State.endOpenLoadOn (s : State) (c : Channel) : State :=
  if (s.chan c).prot.openLoadOn then
    (s.withProt c fun r => { r with openLoadOn := false }).finish (.openLoadOn c)
  else s

/-- The on-state open-load check of a sample (R112). -/
def State.checkOnState (s : State) (c : Channel) (current : Nat) : State :=
  let threshold := (s.profile c).openLoad
  if (s.chan c).sw.out.isRunning && !s.allowanceInForce c then
    if threshold = 0 then s.endOpenLoadOn c
    else if current < threshold then
      let n := min 50 ((s.chan c).prot.onCount + 1)
      let s := s.withProt c fun r => { r with onCount := n }
      if n = 50 ∧ (s.chan c).prot.openLoadOn = false then
        (s.withProt c fun r => { r with openLoadOn := true }).occur (.openLoadOn c)
      else s
    else (s.withProt c fun r => { r with onCount := 0 }).endOpenLoadOn c
  else s

/-- The delivery of an on-state sample: in READY and WARM the short test, and where it does not trip the
channel the open-load check (R99). -/
def State.deliverCurrent (s : State) (c : Channel) (current : Nat) (saturated : Bool) : State :=
  let p := s.profile c
  if (s.chan c).prot.state.free then
    if shortTest (s.allowanceInForce c) saturated (currentRatio current p.nominal) p.shortRatio then
      (s.trip c .short).evaluate c
    else s.checkOnState c current
  else s

/-- The off-state count with a check sample that meets, or does not meet, the threshold counted (R114). -/
def countCheck (n : Nat) (meets : Bool) : Nat := if meets then min 10 (n + 1) else 0

/-- The end tests of a check sample (R115). -/
def State.endOffState (s : State) (c : Channel) (meetsHalf meetsSupply : Bool) : State :=
  let s :=
    if (s.chan c).prot.openLoadOff && !meetsHalf then
      (s.withProt c fun r => { r with openLoadOff := false }).finish (.openLoadOff c)
    else s
  if (s.chan c).prot.shortToSupply && !meetsSupply then
    (s.withProt c fun r => { r with shortToSupply := false }).finish (.shortToSupply c)
  else s

/-- A check sample: it counts by the pull-up's setting, may begin a condition, and tests the end of both
(R114, R115). -/
def State.checkSample (s : State) (c : Channel) (voltage supply : Nat) : State :=
  let meetsHalf := decide (supply ≤ 2 * voltage)
  let meetsSupply := decide (8 * supply ≤ 10 * voltage)
  let pulls := (s.profile c).pulls
  let n := countCheck (s.chan c).prot.offCount (if pulls then meetsHalf else meetsSupply)
  let s := s.withProt c fun r => { r with offCount := n }
  let s :=
    if n = 10 then
      if pulls then
        if (s.chan c).prot.openLoadOff then s
        else (s.withProt c fun r => { r with openLoadOff := true }).occur (.openLoadOff c)
      else if (s.chan c).prot.shortToSupply then s
      else (s.withProt c fun r => { r with shortToSupply := true }).occur (.shortToSupply c)
    else s
  s.endOffState c meetsHalf meetsSupply

/-- The delivery of an off-state sample with the output state and the supply voltage of its scan (R74,
R114). -/
def State.deliverVoltage (s : State) (c : Channel) (wasOff : Bool) (voltage supply : Nat) : State :=
  if wasOff ∧ (s.chan c).prot.offWait = .complete ∧ 100 ≤ supply then s.checkSample c voltage supply else s

/-! ### Clearing (R110) -/

/-- The clearing of one channel, before the evaluation of a move (R110). -/
def State.clearProtection (s : State) (c : Channel) : State :=
  let s := s.withProt c fun r => { r with retries := 0 }
  match (s.chan c).prot.state with
  | .lockout _ =>
    (s.withProt c fun r =>
      { r with
        state := if r.heat < Profile.rearmLevel (s.profile c) then .ready else .trippedOverload }).finish (.lockout c)
  | .ready => s
  | .warm => s
  | .trippedOverload => s
  | .trippedShort _ => s

/-! ### The events of the protection unit's timers -/

/-- OFF_TIME_WAIT_COMPLETE: the off-time wait reaches 20 ms (R113). Nothing where no wait runs (log 3). -/
def execOffTimeWaitComplete (c : Channel) (s : State) : Host.Outcome State Fault Refusal :=
  .next <|
    match (s.chan c).prot.offWait with
    | .since start => (s.advanceTo (start + 200)).withProt c fun r => { r with offWait := .complete }
    | .cleared => s
    | .complete => s

/-- RETRY_DELAY_EXPIRY: the retry-delay timer expires and moves no state (R103). Nothing where no
retry-delay timer runs (log 3). -/
def execRetryDelayExpiry (c : Channel) (s : State) : Host.Outcome State Fault Refusal :=
  .next <|
    match (s.chan c).prot.state with
    | .trippedShort (.running ends) =>
      (s.advanceTo ends).withProt c fun r => { r with state := .trippedShort .expired }
    | _ => s

/-- STABLE_RUN_EXPIRY: the stable-run timer reaches 30,000 ms, the retry counter is set to 0 and the
timer stops (R107). Nothing where the timer is stopped (log 3). -/
def execStableRunExpiry (c : Channel) (s : State) : Host.Outcome State Fault Refusal :=
  .next <|
    match (s.chan c).prot.stableRun with
    | some start => (s.advanceTo (start + 300000)).withProt c fun r => { r with retries := 0, stableRun := none }
    | none => s

end Sys2Proof.Machine
end

