-- ==== Sys2Proof/Machine/Supply.lean ====
section
/-! DEFINITION. The supply supervisor (chapter 8) and the feeder's heat (R87, R88): voltage level, overvoltage
hold, thermal level, shed floors and the effective shed level. -/

namespace Sys2Proof.Machine

/-! ### The effective shed level (R154) -/

/-- The floor component: the greatest standing floor (R154, R156). -/
def Supervisor.floorComponent (v : Supervisor) : Nat :=
  let lev (f : Option Floor) : Nat := match f with | some x => x.level | none => 0
  max (max (lev v.floors.cab) (lev v.floors.body)) (max (lev v.floors.drive) (lev v.floors.service))

/-- The greatest of the thermal level, the voltage level and every standing floor (R154). -/
def Supervisor.effective (v : Supervisor) : Nat := max (max v.thermalLevel v.voltageLevel) v.floorComponent

/-- L recomputed (R154). -/
def State.recompute (s : State) : State := { s with sup := { s.sup with level := s.sup.effective } }

/-- The evaluation of all channels that a change of L since an earlier state causes (R47, R154). -/
def State.evaluateLevel (s before : State) : State :=
  if s.sup.level = before.sup.level then s else s.evaluateAll

/-- The evaluation of all channels that a change of the hold since an earlier state causes (R47, R148). -/
def State.evaluateHold (s before : State) : State :=
  if s.sup.hold = before.sup.hold then s else s.evaluateAll

/-! ### Runs (R142, R143) -/

/-- A run after a sample at moment t that meets, or does not meet, its comparison (R143). -/
def extendRun (r : Option Moment) (t : Moment) (meets : Bool) : Option Moment :=
  if meets then some (r.getD t) else none

/-- A run has a length of n or more at moment t (R142). -/
def ranFor (r : Option Moment) (t n : Moment) : Bool :=
  match r with
  | some start => decide (start + n ≤ t)
  | none => false

/-- The run of level n. -/
def Runs.get (r : Runs) : Nat → Option Moment
  | 1 => r.one
  | 2 => r.two
  | 3 => r.three
  | _ => Option.none

/-- The low runs after a sample V (R143). -/
def Runs.low (r : Runs) (z : Zone) (t : Moment) (v : Nat) : Runs :=
  ⟨extendRun r.one t (decide (v < z.lv1)), extendRun r.two t (decide (v < z.lv2)),
    extendRun r.three t (decide (v < z.lv3))⟩

/-- The recovery runs after a sample V (R143). -/
def Runs.recovery (r : Runs) (z : Zone) (t : Moment) (v : Nat) : Runs :=
  ⟨extendRun r.one t (decide (z.lv1 + 5 ≤ v)), extendRun r.two t (decide (z.lv2 + 5 ≤ v)),
    extendRun r.three t (decide (z.lv3 + 5 ≤ v))⟩

/-- The highest level below m whose low run has lasted 500 ms, or 0 (R144, R145). -/
def Runs.highestBelow (r : Runs) (t : Moment) : Nat → Nat
  | 0 => 0
  | n + 1 => if ranFor (r.get n) t 5000 then n else Runs.highestBelow r t n

/-! ### The zone sample (R143 to R148) -/

/-- The runs after a zone sample (R143). -/
def Supervisor.sample (v : Supervisor) (z : Zone) (t : Moment) (volts : Nat) : Supervisor :=
  { v with
    low := v.low.low z t volts
    recovery := v.recovery.recovery z t volts
    high := extendRun v.high t (decide (340 ≤ volts))
    release := extendRun v.release t (decide (volts < 320))
    latest := some volts }

/-- The rise of the voltage level (R144). -/
def Supervisor.rise (v : Supervisor) (t : Moment) : Supervisor :=
  { v with voltageLevel := max v.voltageLevel (v.low.highestBelow t 4) }

/-- The fall of the voltage level (R145). -/
def Supervisor.fall (v : Supervisor) (t : Moment) : Supervisor :=
  if 1 ≤ v.voltageLevel ∧ ranFor (v.recovery.get v.voltageLevel) t 50000 then
    { v with voltageLevel := v.low.highestBelow t v.voltageLevel }
  else v

/-- The hold test (R148). -/
def Supervisor.testHold (v : Supervisor) (t : Moment) : Supervisor :=
  if v.hold then
    if ranFor v.release t 1000 then { v with hold := false } else v
  else if ranFor v.high t 20 then { v with hold := true } else v

/-- The report of a condition that holds while a flag is set: its beginning where the flag has become
set, its end where it has become clear (R147, R148, R150). -/
def flagReport (old new : Bool) (k : FaultKey) : List Report :=
  if old = new then [] else if new then [.occur k] else [.finish k]

/-- The delivery of a zone sample: runs, voltage level, L, hold, the reports of SUPPLY_LOW and, after it, of
SUPPLY_HIGH, and then the evaluations that a changed L and a changed hold cause (R143 to R148, R154; log 17). -/
def State.deliverZone (s : State) (volts : Nat) : State :=
  let v := ((s.sup.sample s.cfg.zone s.now volts).rise s.now).fall s.now
  let t := ({ s with sup := v }).recompute
  let t := { t with sup := t.sup.testHold t.now }
  let t := t.report (flagReport (decide (1 ≤ s.sup.voltageLevel)) (decide (1 ≤ t.sup.voltageLevel)) .supplyLow
    ++ flagReport s.sup.hold t.sup.hold .supplyHigh)
  (t.evaluateLevel s).evaluateHold s

/-! ### Thresholds written (R146) -/

/-- A run after a write of a threshold: tested against the latest sample, it ends, starts at the write, or
is kept (R146). -/
def Supervisor.retest (v : Supervisor) (z : Zone) (t : Moment) : Supervisor :=
  match v.latest with
  | none => v
  | some volts => { v with low := v.low.low z t volts, recovery := v.recovery.recovery z t volts }

/-! ### The feeder (R87, R88, R149, R150) -/

/-- The feeder warm level (R87). -/
def Zone.warmLevel (z : Zone) : Nat := z.feederWarm * 2 ^ z.feederShift

/-- The feeder cool level (R87). -/
def Zone.coolLevel (z : Zone) : Nat := 3 * z.feederWarm * 2 ^ z.feederShift / 4

/-- The thermal level after the comparison of a feeder fuse tick at moment t (R149). -/
def Supervisor.thermalAfter (v : Supervisor) (z : Zone) (t : Moment) : Nat :=
  let dwell := t - v.dwellStart
  if v.thermalLevel = 0 then
    if Zone.warmLevel z ≤ v.heat then 1 else 0
  else if v.thermalLevel < 3 ∧ Zone.warmLevel z ≤ v.heat ∧ 20000 ≤ dwell then v.thermalLevel + 1
  else if v.heat < Zone.coolLevel z ∧ 50000 ≤ dwell then v.thermalLevel - 1
  else v.thermalLevel

/-- The comparison of a feeder fuse tick: a move sets the dwell start (R149). -/
def Supervisor.compare (v : Supervisor) (z : Zone) (t : Moment) : Supervisor :=
  if v.thermalAfter z t = v.thermalLevel then v
  else { v with thermalLevel := v.thermalAfter z t, dwellStart := t }

/-- FEEDER_FUSE_TICK: comparison with FEEDER_WARM and L, update of H_f, then the evaluation a changed L
causes (R88, R149, R150, R154). -/
def execFeederFuseTick (s : State) : Host.Outcome State Fault Refusal :=
  .next <|
    let s := s.advanceTo (s.sup.lastTick + 10)
    let s := { s with sup := { s.sup with lastTick := s.now } }
    let z := s.cfg.zone
    let v := s.sup.compare z s.now
    let t := ({ s with sup := v }).report
      (flagReport (decide (1 ≤ s.sup.thermalLevel)) (decide (1 ≤ v.thermalLevel)) .feederWarm)
    let t := t.recompute
    let power := currentRatio t.scan.feeder z.feederNominal ^ 2
    let t := { t with sup := { t.sup with heat := heatStep z.feederShift power t.sup.heat } }
    t.evaluateLevel s

/-! ### Shed floors (R151, R152) -/

/-- The floor of a source replaced or ended, L recomputed, and a changed L evaluated (R151, R152, R154). -/
def State.setFloor (s : State) (src : NetSource) (f : Option Floor) : State :=
  (({ s with sup := { s.sup with floors := s.sup.floors.set src f } }).recompute).evaluateLevel s

/-- The floor an accepted SHED_FLOOR sets: a level above 3 taken as 3, a duration of 0 as 1, none for
level 0 (R151). -/
def floorOf (level duration : Nat) (t : Moment) : Option Floor :=
  if level = 0 then none else some ⟨min 3 level, t + 1000 * max 1 duration⟩

/-- FLOOR_EXPIRY: the floor of a source ends (R152). Nothing where the source has no standing floor (log 3). -/
def execFloorExpiry (src : NetSource) (s : State) : Host.Outcome State Fault Refusal :=
  .next <|
    match s.sup.floors.get src with
    | some f => (s.advanceTo f.ends).setFloor src none
    | none => s

end Sys2Proof.Machine
end

