-- ==== Sys2Proof/Machine/Demand.lean ====
section
/-! DEFINITION. The demand table (chapter 2): classes, the effect of each code, DEMAND frames, pulses, lapses
and fallback, the start grace, SERVICE and LINE entries. -/

namespace Sys2Proof.Machine

/-! ### Classes and deadlines (R25, R32) -/

/-- The class a class field gives (R25). -/
def Class.ofField : Nat → Class
  | 2 => .duty
  | 3 => .safety
  | _ => .comfort

/-- A class lowered to DUTY where it lies above it (R25). -/
def Class.heldAtDuty : Class → Class
  | .comfort => .comfort
  | .duty => .duty
  | .safety => .duty
  | .force => .duty

/-- The class of an entry a source writes (R25). -/
def classFor (src : NetSource) (classField : Nat) : Class :=
  match src with
  | .cab => Class.heldAtDuty (Class.ofField classField)
  | .body => Class.heldAtDuty (Class.ofField classField)
  | .drive => Class.ofField classField
  | .service => .force

/-- The lapse deadline of an entry written or renewed now: the lapse time counts 10 ms (R7, R32). It is kept to the
0.1 ms at which it was set and is not rounded to whole milliseconds, so deadlines set within one millisecond at
different moments lapse in separate events (R23, R33; log 28). -/
def State.lapseDeadline (s : State) (src : NetSource) : Moment := s.now + 100 * s.cfg.lapse.get src

/-! ### The effect of a code on a channel (R26 to R30, R37, R38) -/

/-- The sender's entry is written: any entry of the sender is replaced, a FALLBACK entry is removed, and the
channel is claimed while the start grace runs (R27, R30, R37, R38). -/
def State.writeEntry (s : State) (src : NetSource) (c : Channel) (cls : Class) (cmd : EntryCommand) : State :=
  s.withDemand c fun d =>
    { d with
      list := { d.list with net := d.list.net.set src (some ⟨cls, cmd, some (s.lapseDeadline src)⟩), fallback := none }
      claimed := d.claimed || s.graceStart.isSome }

/-- The sender's entry is removed (R28). -/
def State.removeEntry (s : State) (src : NetSource) (c : Channel) : State :=
  s.withDemand c fun d => { d with list := { d.list with net := d.list.net.set src none } }

/-- The sender's entry, if there is one, takes a fresh deadline (R29). -/
def State.renewEntry (s : State) (src : NetSource) (c : Channel) : State :=
  s.withDemand c fun d =>
    let fresh := (d.list.net.get src).map fun e => { e with deadline := some (s.lapseDeadline src) }
    { d with list := { d.list with net := d.list.net.set src fresh } }

/-- The duty of a DIM code: 4 ‰ for each step up to 250, 1000 ‰ above (R27). -/
def dutyOf (argument : Nat) : Nat := 4 * min 250 argument

/-- The length of a pulse in ms: 10 ms for each step, 10 ms for 0 (R30). -/
def pulseLength (argument : Nat) : Nat := 10 * max 1 argument

/-- The entry is a pulse entry, RUNNING or SPENT (R30). -/
def Entry.isPulse (e : Entry) : Bool :=
  match e.command with
  | .pulse _ _ => true
  | .ask _ => false

/-- A PULSE code that passes R26: renews a pulse entry of the sender, or creates one (R30). -/
def State.takePulse (s : State) (src : NetSource) (c : Channel) (d : DemandItem) : State :=
  match (s.chan c).demand.list.net.get src with
  | some e =>
    if e.isPulse then s.renewEntry src c
    else s.writeEntry src c (classFor src d.classField)
      (.pulse (pulseLength d.argument) (.running (s.now + 10 * pulseLength d.argument)))
  | none => s.writeEntry src c (classFor src d.classField)
      (.pulse (pulseLength d.argument) (.running (s.now + 10 * pulseLength d.argument)))

/-- The tests of R26 refuse a code of a sender on a channel with the profile. -/
def DemandItem.refused (d : DemandItem) (p : Profile) (src : NetSource) : Bool :=
  match d.code with
  | .skip => false
  | .release => false
  | .flash => !p.permits src || decide (3 < d.argument)
  | .off => !p.permits src
  | .on => !p.permits src
  | .dim => !p.permits src
  | .pulse => !p.permits src
  | .renew => !p.permits src

/-- The pattern of a FLASH code that R26 lets pass (R27). -/
def patternOf (argument : Nat) : Pattern := ⟨argument % 4, Nat.mod_lt _ (by decide)⟩

/-- The effect of a code that R26 lets pass (R27 to R30). -/
def State.applyCode (s : State) (src : NetSource) (c : Channel) (d : DemandItem) : State :=
  let cls := classFor src d.classField
  match d.code with
  | .skip => s
  | .release => s.removeEntry src c
  | .off => s.writeEntry src c cls (.ask .off)
  | .on => s.writeEntry src c cls (.ask .on)
  | .dim => s.writeEntry src c cls (.ask (.dim (dutyOf d.argument)))
  | .flash => s.writeEntry src c cls (.ask (.flash (patternOf d.argument)))
  | .pulse => s.takePulse src c d
  | .renew => s.renewEntry src c

/-- One code of a DEMAND frame: refused with REFUSED logged, or applied (R24 step 3, R26). -/
def State.takeCode (s : State) (src : NetSource) (c : Channel) (d : DemandItem) : State :=
  if d.refused (s.profile c) src then s.logCause c .refused else s.applyCode src c d

/-! ### DEMAND frames (R24) -/

/-- The sender's lapsed flag cleared, with the end of its SOURCE_LAPSED condition (R24 step 1). -/
def State.clearLapsed (s : State) (src : NetSource) : State :=
  if s.lapsed.get src then ({ s with lapsed := s.lapsed.set src false }).finish (.sourceLapsed src) else s

/-- A frame of SERVICE while SVC is INACTIVE: REFUSED logged for each code other than SKIP (R24 step 2). -/
def State.refuseCodes (s : State) (g : Fin 4) (data : Vector Byte 8) : State :=
  groupPlaces.foldl
    (fun t i => if (demandItem data i).code = .skip then t else t.logCause (groupChannel g i) .refused) s

/-- The four codes of a frame taken in ascending channel number (R24 step 3). -/
def State.takeCodes (s : State) (src : NetSource) (g : Fin 4) (data : Vector Byte 8) : State :=
  groupPlaces.foldl (fun t i => t.takeCode src (groupChannel g i) (demandItem data i)) s

/-- An accepted DEMAND frame at the demand table (R24, R185). -/
def State.takeDemand (s : State) (src : NetSource) (g : Fin 4) (data : Vector Byte 8) : State :=
  let s := s.clearLapsed src
  if src = .service ∧ s.lines.svc.active = false then s.refuseCodes g data
  else (s.takeCodes src g data).evaluateChanged s

/-- DEMAND: a frame that the port accepts is handed to the demand table; any other is ignored (R183, R185). -/
def execDemand (rx : RxHeader) (data : Vector Byte 8) (s : State) : Host.Outcome State Fault Refusal :=
  .next <|
    match s.demandSender rx with
    | none => s
    | some src => s.takeDemand src (s.demandGroup rx) data

/-! ### Pulses (R31) -/

/-- PULSE_TIMER_EXPIRY: the pulse of a source's entry on a channel becomes SPENT, and the channel is handed
over (R31, R44). Nothing where no such pulse runs (log 3). -/
def execPulseTimerExpiry (src : NetSource) (c : Channel) (s : State) : Host.Outcome State Fault Refusal :=
  .next <|
    match (s.chan c).demand.list.net.get src with
    | some ⟨cls, .pulse n (.running ends), deadline⟩ =>
      let spent : Entry := ⟨cls, .pulse n .spent, deadline⟩
      ((s.advanceTo ends).withDemand c fun d =>
        { d with list := { d.list with net := d.list.net.set src (some spent) } }).evaluate c
    | _ => s

/-! ### Lapses and fallback (R33, R35) -/

/-- The FALLBACK entry that a profile and a last network winner call for (R35, R37). -/
def fallbackFor (f : Fallback) (last : Option Ask) : Option Entry :=
  match f with
  | .off => none
  | .on => some ⟨.comfort, .ask .on, none⟩
  | .hold => last.map fun a => ⟨.comfort, .ask a, none⟩

/-- The FALLBACK entry of a channel inserted where its list holds no network entry (R33 step 4, R35). -/
def State.insertFallback (s : State) (c : Channel) : State :=
  if (s.chan c).demand.list.hasNetwork then s
  else
    match fallbackFor (s.profile c).fallbackKind (s.chan c).demand.lastNetworkWinner with
    | none => s
    | some e => s.withDemand c fun d => { d with list := { d.list with fallback := some e } }

/-- One entry lapses (R33 steps 1 to 4); its SOURCE_LAPSED is reported with those of the others that lapse in the same
event. -/
def State.lapseEntry (s : State) (src : NetSource) (c : Channel) : State :=
  let s := (s.removeEntry src c).logCause c .lapse
  ({ s with lapsed := s.lapsed.set src true }).insertFallback c

/-- The entry of a source on a channel has the deadline. -/
def State.fallsDue (s : State) (due : Moment) (src : NetSource) (c : Channel) : Bool :=
  match (s.chan c).demand.list.net.get src with
  | some e => decide (e.deadline = some due)
  | none => false

/-- Every entry of channel c whose deadline falls at the moment lapses, in ascending source number (R33). -/
def State.lapseChannel (s : State) (due : Moment) (c : Channel) : State :=
  (allNetSources.filter fun src => s.fallsDue due src c).foldl (fun t src => t.lapseEntry src c) s

/-- The reports of a lapse: SOURCE_LAPSED once for each entry, in the order in which they lapse (R33, R171). -/
def State.lapseReports (s : State) (due : Moment) : List Report :=
  allChannels.flatMap fun c =>
    (allNetSources.filter fun src => s.fallsDue due src c).map fun src => .occur (.sourceLapsed src)

/-- All the entries whose deadline falls at one moment lapse in one event, and the channels that lost an
entry are handed over (R33, R44). -/
def State.lapseAll (s : State) (due : Moment) : State :=
  ((allChannels.foldl (fun t c => t.lapseChannel due c) s).report (s.lapseReports due)).evaluateEach
    (allChannels.filter fun c => allNetSources.any fun src => s.fallsDue due src c)

/-- LAPSE: the deadline of a source's entry on a channel expires, and with it every deadline of the same
moment (R33). Nothing where the source has no entry there (log 3). -/
def execLapse (src : NetSource) (c : Channel) (s : State) : Host.Outcome State Fault Refusal :=
  .next <|
    match (s.chan c).demand.list.net.get src with
    | some ⟨_, _, some due⟩ => (s.advanceTo due).lapseAll due
    | _ => s

/-! ### Start grace (R38) -/

/-- The channel receives a FALLBACK entry at the end of the start grace (R38). -/
def State.unclaimed (s : State) (c : Channel) : Bool :=
  let d := (s.chan c).demand
  !d.claimed && !d.list.hasNetwork && d.list.fallback.isNone && (s.profile c).fallbackKind == .on

/-- The FALLBACK entries of the end of the start grace, channel by channel (R38). -/
def State.graceEntries (s : State) : State :=
  allChannels.foldl
    (fun t c =>
      if t.unclaimed c then
        t.withDemand c fun d => { d with list := { d.list with fallback := some ⟨.comfort, .ask .on, none⟩ } }
      else t) s

/-- The end of the start-grace wait (R38). -/
def State.endGrace (s : State) : State :=
  let s := { s with graceStart := none }
  s.graceEntries.evaluateChanged s

/-- START_GRACE_END: the wait reaches the start grace in force (R6, R38). Nothing where the wait has ended
(log 3). -/
def execStartGraceEnd (s : State) : Host.Outcome State Fault Refusal :=
  .next <|
    match s.graceStart with
    | some t => (s.advanceTo (t + 1000 * s.cfg.zone.startGrace)).endGrace
    | none => s

/-! ### SERVICE and LINE entries (R39 to R41) -/

/-- Every SERVICE entry removed from every list (R39). -/
def State.removeService (s : State) : State :=
  (allChannels.foldl (fun t c => t.removeEntry .service c) s).evaluateChanged s

/-- The active lines bound to channel c, in ascending number (R40). -/
def State.boundLines (s : State) (c : Channel) : List (Fin 4) :=
  allPatterns.filter fun i => s.lines.conf[i].active && s.cfg.line[i].binds c

/-- The command of a LINE entry for the lines bound to it, the lowest first (R40). -/
def lineCommand (patterns : List (Option Pattern)) : Option Ask :=
  if none ∈ patterns then some .on
  else match patterns with
    | some p :: _ => some (.flash p)
    | _ => none

/-- The LINE entry of channel c (R40). -/
def State.lineEntry (s : State) (c : Channel) : Option Entry :=
  (lineCommand ((s.boundLines c).map fun i => s.cfg.line[i].flashPattern)).map fun a => ⟨.safety, .ask a, none⟩

/-- The LINE entries of some channels recomputed, and those that differ handed over (R41, R44). -/
def State.recomputeLines (s : State) (concerned : Channel → Bool) : State :=
  ((allChannels.filter concerned).foldl
    (fun t c => t.withDemand c fun d => { d with list := { d.list with line := t.lineEntry c } }) s).evaluateChanged s

end Sys2Proof.Machine
end

