-- ==== Sys2Proof/Machine/Lines.lean ====
section
/-! DEFINITION. The line inputs (chapter 9): raw states, debounce, and what a debounced change does. -/

namespace Sys2Proof.Machine

/-! ### Line records (R158) -/

/-- The record of a line. -/
def State.line (s : State) : Line → LineRecord
  | .conf i => s.lines.conf[i]
  | .emg => s.lines.emg
  | .svc => s.lines.svc

/-- The state with the record of a line replaced. -/
def State.setLine (s : State) (l : Line) (r : LineRecord) : State :=
  match l with
  | .conf i => { s with lines := { s.lines with conf := s.lines.conf.set i r } }
  | .emg => { s with lines := { s.lines with emg := r } }
  | .svc => { s with lines := { s.lines with svc := r } }

/-- The level a polarity field reads as ACTIVE: high for 0, low for 1 (R9). -/
def LineSettings.activeLevel (l : LineSettings) : Bool := decide (l.polarity = 0)

/-- The level that is ACTIVE on a line: from the line table for L0 to L3, low on EMG, high on SVC (R158). -/
def State.activeLevel (s : State) : Line → Bool
  | .conf i => LineSettings.activeLevel s.cfg.line[i]
  | .emg => false
  | .svc => true

/-- The raw state of a line, true for ACTIVE (R158). -/
def State.raw (s : State) (l : Line) : Bool := (s.line l).high == s.activeLevel l

/-- The debounce length of a line: the line table counts ms; 10 ms on EMG, 50 ms on SVC (R158). -/
def State.debounceLength (s : State) : Line → Moment
  | .conf i => 10 * s.cfg.line[i].debounce
  | .emg => 100
  | .svc => 500

/-! ### Debounced changes (R160, R162, R163, R166) -/

/-- The emergency latch becomes set: EMERGENCY begins, and all channels are evaluated (R163). -/
def State.setLatch (s : State) : State := (({ s with latch := true }).occur .emergency).evaluateAll

/-- The SERVICE floor, if standing, ends (R152). -/
def State.endServiceFloor (s : State) : State :=
  match s.sup.floors.service with
  | none => s
  | some _ => s.setFloor .service none

/-- The loss of SVC: SERVICE entries and SERVICE floor end, in the order given (R39, R152, R166; log 8). -/
def State.loseService (s : State) (floorFirst : Bool) : State :=
  if floorFirst then s.endServiceFloor.removeService else s.removeService.endServiceFloor

/-- A changed debounced state handed on (R162, R163, R166). -/
def State.handOn (s : State) (l : Line) (floorFirst : Bool) : State :=
  match l with
  | .conf i => s.recomputeLines fun c => s.cfg.line[i].binds c
  | .emg => if s.lines.emg.active && !s.latch then s.setLatch else s
  | .svc => if s.lines.svc.active then s else s.loseService floorFirst

/-- The debounced state becomes the raw state, and the change is handed on (R160). -/
def State.settle (s : State) (l : Line) (floorFirst : Bool) : State :=
  (s.setLine l { s.line l with active := s.raw l, debounce := none }).handOn l floorFirst

/-- The raw state compared with the debounced state: a debounce starts, or, at length 0, the change is made
at once; where they agree no debounce runs (R159, R160). The debounce start is the moment of the event to 0.1 ms, not
rounded to whole milliseconds (R158; log 28). -/
def State.reconsider (s : State) (l : Line) : State :=
  if s.raw l = (s.line l).active then s.setLine l { s.line l with debounce := none }
  else if s.debounceLength l = 0 then s.settle l false
  else s.setLine l { s.line l with debounce := some s.now }

/-- LINE_LEVEL_CHANGE: the pin of a line changes to a level (R159). A level that is no change has no effect
(log 24). -/
def execLineLevelChange (l : Line) (high : Bool) (s : State) : Host.Outcome State Fault Refusal :=
  .next <|
    if (s.line l).high = high then s
    else (s.setLine l { s.line l with high := high }).reconsider l

/-- DEBOUNCE_EXPIRY: the time from the debounce start reaches the debounce length (R160). Nothing where no
debounce runs (log 3). -/
def execDebounceExpiry (l : Line) (floorFirst : Bool) (s : State) : Host.Outcome State Fault Refusal :=
  .next <|
    match (s.line l).debounce with
    | some start => (s.advanceTo (start + s.debounceLength l)).settle l floorFirst
    | none => s

end Sys2Proof.Machine
end

