-- ==== Sys2Proof/Machine/Flags.lean ====
section
/-! DEFINITION. The packing of REPLY and STATUS frames: bit fields and bytes (R184), the codes of R186, and the
items of the STATUS frame (R201). -/

namespace Sys2Proof.Machine

/-! ### Bits and bytes (R184) -/

/-- A number in a field of the given width at a bit position. -/
def field (pos width n : Nat) : Nat := n % 2 ^ width * 2 ^ pos

/-- A yes-or-no as one bit. -/
def flagBit (b : Bool) : Nat := if b then 1 else 0

/-- The two bytes of a value, low byte first. -/
def bytes2 (n : Nat) : List Nat := [n % 256, n / 256 % 256]

/-- The three bytes of a value, low byte first. -/
def bytes3 (n : Nat) : List Nat := [n % 256, n / 256 % 256, n / 65536 % 256]

/-- Eight data bytes from the front, 0 where the list gives none. -/
def packBytes (l : List Nat) : Vector Byte 8 := Vector.ofFn fun i => BitVec.ofNat 8 (l.getD i.val 0)

/-- A length of time in units, rounded up. -/
def ceilUnits (length unit : Nat) : Nat := (length + unit - 1) / unit

/-- The mask of a list of channels: channel n is bit n (R189). -/
def channelMask (l : List Channel) : Nat := (l.map fun c => 2 ^ c.val).sum

/-! ### Codes (R186) -/

/-- The code of a result (R184). -/
inductive ReplyResult
  | ok | range | notPermitted | condition | busy | unknown
deriving DecidableEq, Repr

/-- The code of a result (R184). -/
def ReplyResult.code : ReplyResult → Nat
  | .ok => 0
  | .range => 1
  | .notPermitted => 2
  | .condition => 3
  | .busy => 4
  | .unknown => 5

/-- The command code of a demand (R186). -/
def Ask.code : Ask → Nat
  | .off => 0
  | .on => 1
  | .dim _ => 2
  | .flash _ => 3

/-- The command code of an entry (R186). -/
def EntryCommand.code : EntryCommand → Nat
  | .ask a => a.code
  | .pulse _ _ => 4

/-- The command code of a winner (R186). -/
def WonCommand.code : WonCommand → Nat
  | .ask a => a.code
  | .pulse => 4

/-- The output state (R186). -/
def OutState.code : OutState → Nat
  | .off => 0
  | .waiting => 1
  | .inrush _ => 2
  | .steady _ _ => 3
  | .pwm _ _ _ _ => 3
  | .flash _ => 3

/-- The mode; STEADY where there is none (R65, R186). -/
def OutState.modeCode : OutState → Nat
  | .pwm _ _ _ _ => 1
  | .flash _ => 2
  | .off => 0
  | .waiting => 0
  | .inrush _ => 0
  | .steady _ _ => 0

/-- The applied duty or pattern (R65). -/
def OutState.applied : OutState → Nat
  | .pwm d _ _ _ => d
  | .flash p => p.val
  | .inrush _ => 1000
  | .steady _ _ => 1000
  | .off => 0
  | .waiting => 0

/-- The granted output (R186). -/
def Granted.code : Granted → Nat
  | .off => 0
  | .steady => 1
  | .pwm _ => 2
  | .flash _ => 3

/-- The granted duty or pattern (R65). -/
def Granted.item : Granted → Nat
  | .pwm d => d
  | .flash p => p.val
  | .steady => 1000
  | .off => 0

/-- The protection state (R186). -/
def ProtState.code : ProtState → Nat
  | .ready => 0
  | .warm => 1
  | .trippedOverload => 2
  | .trippedShort _ => 2
  | .lockout _ => 3

/-- The trip kind (R186). -/
def ProtState.kindCode : ProtState → Nat
  | .ready => 0
  | .warm => 0
  | .trippedOverload => 1
  | .trippedShort _ => 2
  | .lockout .overload => 1
  | .lockout .short => 2

/-- A limit-cause set (R186). -/
def CauseSet.code (t : CauseSet) : Nat :=
  field 0 1 (flagBit t.lockout) + field 1 1 (flagBit t.protect) + field 2 1 (flagBit t.emergency)
    + field 3 1 (flagBit t.overvoltage) + field 4 1 (flagBit t.shed) + field 5 1 (flagBit t.derate)
    + field 6 1 (flagBit t.refused) + field 7 1 (flagBit t.lapse)

/-- The reset cause (R186). -/
def ResetCause.code : ResetCause → Nat
  | .powerOn => 0
  | .supplyDip => 1
  | .external => 2

/-- The code of a fault cause (R168). -/
def FaultKey.code : FaultKey → Nat
  | .overloadTrip _ => 1
  | .shortTrip _ => 2
  | .lockout _ => 3
  | .openLoadOn _ => 4
  | .openLoadOff _ => 5
  | .shortToSupply _ => 6
  | .sourceLapsed _ => 7
  | .supplyLow => 8
  | .supplyHigh => 9
  | .feederWarm => 10
  | .emergency => 11
  | .configDefaulted => 12
  | .storeFailed => 13

/-- The channel of a record, 255 if absent (R170, R187). -/
def FaultKey.channelCode : FaultKey → Nat
  | .overloadTrip c => c.val
  | .shortTrip c => c.val
  | .lockout c => c.val
  | .openLoadOn c => c.val
  | .openLoadOff c => c.val
  | .shortToSupply c => c.val
  | .sourceLapsed _ => 255
  | .supplyLow => 255
  | .supplyHigh => 255
  | .feederWarm => 255
  | .emergency => 255
  | .configDefaulted => 255
  | .storeFailed => 255

/-- The source of a record, 0 if absent (R170, R187). -/
def FaultKey.sourceCode : FaultKey → Nat
  | .sourceLapsed s => NetSource.code s
  | .overloadTrip _ => 0
  | .shortTrip _ => 0
  | .lockout _ => 0
  | .openLoadOn _ => 0
  | .openLoadOff _ => 0
  | .shortToSupply _ => 0
  | .supplyLow => 0
  | .supplyHigh => 0
  | .feederWarm => 0
  | .emergency => 0
  | .configDefaulted => 0
  | .storeFailed => 0

/-! ### Items with a stated range -/

/-- The remaining lapse time of an entry in 10 ms units rounded up, 1 to 255; 0 for an entry without a
deadline (R43; log 26). -/
def Entry.remaining (e : Entry) (t : Moment) : Nat :=
  match e.deadline with
  | some d => min 255 (max 1 (ceilUnits (d - t) 100))
  | none => 0

/-- The argument of an entry as QUERY_ENTRY reports it (R43). -/
def EntryCommand.argument : EntryCommand → Nat
  | .ask .off => 0
  | .ask .on => 0
  | .ask (.dim d) => d / 4
  | .ask (.flash p) => p.val
  | .pulse n _ => n / 10

/-- The pulse phase is SPENT (R43). -/
def EntryCommand.isSpent : EntryCommand → Bool
  | .pulse _ .spent => true
  | .pulse _ (.running _) => false
  | .ask _ => false

/-- The retry delay remaining in 100 ms units rounded up, 1 to 255 while the timer runs, 0 otherwise
(R117; log 26). -/
def ProtState.delayRemaining (p : ProtState) (t : Moment) : Nat :=
  match p with
  | .trippedShort (.running ends) => min 255 (max 1 (ceilUnits (ends - t) 1000))
  | .trippedShort .expired => 0
  | .ready => 0
  | .warm => 0
  | .trippedOverload => 0
  | .lockout _ => 0

/-! ### The STATUS frame (R184, R201) -/

/-- The winning entry has a command other than OFF (R201). -/
def ArbRecord.asks (a : ArbRecord) : Bool :=
  match a.winner with
  | none => false
  | some w => decide (w.command ≠ .ask .off)

/-- The state of a channel in STATUS: OFF 0, ON 1, HELD 2, FAULT 3 (R184, R201). -/
def ChannelState.statusCode (x : ChannelState) : Nat :=
  if x.prot.state.tripped || x.prot.state.locked then 3
  else if x.arb.asks && !x.sw.out.isOn then 2
  else if x.sw.out.isOn then 1
  else 0

/-- The byte of STATUS for channels 4b to 4b + 3 (R184). -/
def State.statusByte (s : State) (b : Fin 4) : Nat :=
  (groupPlaces.map fun j => field (2 * j.val) 2 (s.chan (groupChannel b j)).statusCode).sum

/-- The contents of a STATUS frame from the state as it stands (R184, R201). -/
def State.statusFrame (s : State) : Vector Byte 8 :=
  packBytes
    [s.statusByte 0, s.statusByte 1, s.statusByte 2, s.statusByte 3,
      field 0 2 s.sup.level + field 2 1 (flagBit s.latch) + field 3 1 (flagBit s.sup.hold)
        + field 4 1 (flagBit s.faults.overflow) + field 5 1 (flagBit s.portA.online)
        + field 6 1 (flagBit s.portB.online),
      s.faults.records.length]

end Sys2Proof.Machine
end

