-- ==== Sys2Proof/Machine/Network.lean ====
section
/-! DEFINITION. The network ports (chapter 11): the discard test, replies and where they are placed, the STATUS
broadcast, transmission, bus-off, and the uptime clock (R169). -/

namespace Sys2Proof.Machine

/-! ### The transmit queue (R186, R200, R203) -/

/-- The frame in transmission is a REPLY to the source. -/
def PortRecord.sendsTo (p : PortRecord) (src : NetSource) : Bool :=
  match p.sending with
  | some (.reply r) => decide (r.requester = src)
  | some (.status _) => false
  | none => false

/-- A REPLY to the source is queued or in transmission (R186 step 1). -/
def PortRecord.hasReply (p : PortRecord) (src : NetSource) : Bool :=
  p.replies.any (fun r => decide (r.requester = src)) || p.sendsTo src

/-- A COMMAND of the source is discarded: the discard test of R186, with the replies held for SERVICE of R200. -/
def State.discards (s : State) (src : NetSource) : Bool :=
  if src = .service then
    s.heldCommand.isSome || (s.heldStore.isNone && s.portA.hasReply .service)
  else (s.port (NetSource.port src)).hasReply src

/-- A REPLY placed at the tail of the queue of its port; an OFFLINE port discards it (R181, R200). -/
def State.queueReply (s : State) (r : Reply) : State :=
  let port := NetSource.port r.requester
  let p := s.port port
  if p.online then s.setPort port { p with replies := p.replies ++ [r] } else s

/-- A REPLY to a command placed by its port, or held behind a held store reply (R186 step 3, R200). -/
def State.placeReply (s : State) (r : Reply) : State :=
  if r.requester = .service ∧ s.heldStore.isSome then { s with heldCommand := some r } else s.queueReply r

/-! ### Taking a COMMAND frame (R184, R186) -/

/-- What the owner of a command hands back: the result, and the reply data from byte 2. -/
structure Answer where
  result : ReplyResult
  data : List Nat
deriving DecidableEq, Repr

/-- The REPLY frame of an answer (R184). -/
def Answer.toReply (a : Answer) (code : Nat) (src : NetSource) : Reply :=
  ⟨src, packBytes ([field 0 5 code + field 5 3 (NetSource.code src), a.result.code] ++ a.data)⟩

/-- What the owner of a command leaves: the state, and the answer where one is handed back at once. -/
structure Taken where
  state : State
  answer : Option Answer
deriving DecidableEq, Repr

/-- The answer of a taken command placed by the port (R186 step 3). -/
def Taken.finish (t : Taken) (code : Nat) (src : NetSource) : State :=
  match t.answer with
  | none => t.state
  | some a => t.state.placeReply (a.toReply code src)

/-- A COMMAND frame at its port: ignored, discarded, or passed to its owner and answered (R183, R186). -/
def State.takeCommand (s : State) (rx : RxHeader) (code : Nat) (owner : NetSource → State → Taken) : State :=
  match s.commandSender rx with
  | none => s
  | some src => if s.discards src then s else (owner src s).finish code src

/-- UNKNOWN_COMMAND: a command code that no command has is answered with UNKNOWN (R186 step 2). -/
def execUnknownCommand (rx : RxHeader) (code : UnknownCode) (_args : Vector Byte 7) (s : State) :
    Host.Outcome State Fault Refusal :=
  .next (s.takeCommand rx 0 fun _ s => ⟨s, some ⟨.unknown, [code.val.toNat]⟩⟩)

/-! ### The STATUS broadcast (R201, R202) -/

/-- A STATUS frame built and placed on an ONLINE port, in place of one that waits; nothing on an OFFLINE
port (R201, R202). -/
def State.broadcast (s : State) (port : Port) : State :=
  if (s.port port).online then s.setPort port { s.port port with status := some s.statusFrame } else s

/-- STATUS_DUE: the time since the port's previous due moment reaches the status interval in force; the timer
restarts (R201). -/
def execStatusDue (port : Port) (s : State) : Host.Outcome State Fault Refusal :=
  .next <|
    let s := s.advanceTo ((s.port port).lastDue + 10 * s.cfg.zone.statusInterval)
    (s.setPort port { s.port port with lastDue := s.now }).broadcast port

/-! ### The frames the part sends (R182) -/

/-- A frame as the part puts it on the bus: its 11-bit identifier and its eight data bytes (R182, R184). -/
structure BusFrame where
  ident : Nat
  data : Vector Byte 8
deriving DecidableEq, Repr

/-- A frame of the part with its identifier: the base plus 0x20 for STATUS and plus 0x21 for REPLY (R182). -/
def TxFrame.onBus (zoneAddress : Nat) : TxFrame → BusFrame
  | .status d => ⟨baseIdent zoneAddress + 0x20, d⟩
  | .reply r => ⟨baseIdent zoneAddress + 0x21, r.data⟩

/-- The frame that a port has in transmission, as it stands on the bus (R182, R203; log 23). -/
def State.frameOnBus (s : State) (port : Port) : Option BusFrame :=
  (s.port port).sending.map fun f => f.onBus s.zoneAddress

/-! ### Transmission (R204) -/

/-- A port with an empty transmit buffer takes the oldest REPLY, or the STATUS where no REPLY waits (R204). -/
def PortRecord.take (p : PortRecord) : PortRecord :=
  match p.sending with
  | some _ => p
  | none =>
    match p.replies, p.status with
    | r :: rest, _ => { p with replies := rest, sending := some (.reply r) }
    | [], some d => { p with status := none, sending := some (.status d) }
    | [], none => p

/-- TAKE_INTO_TRANSMISSION: an ONLINE port takes a frame of its queue into its empty transmit buffer (R181,
R204). -/
def execTakeIntoTransmission (port : Port) (s : State) : Host.Outcome State Fault Refusal :=
  .next (if (s.port port).online then s.setPort port (s.port port).take else s)

/-- A held REPLY placed after the end of a REPLY to SERVICE: the store reply first, then the reply held
behind it (R200). -/
def State.placeHeld (s : State) : State :=
  match s.heldStore, s.heldCommand with
  | some r, _ => ({ s with heldStore := none }).queueReply r
  | none, some r => ({ s with heldCommand := none }).queueReply r
  | none, none => s

/-- FRAME_SENT: the frame in transmission leaves the transmit buffer, and the end of a REPLY to SERVICE places
the reply held behind it (R200, R204). Nothing where no frame is in transmission (log 3). -/
def execFrameSent (port : Port) (s : State) : Host.Outcome State Fault Refusal :=
  .next <|
    let t := s.setPort port { s.port port with sending := none }
    if port = .a ∧ s.portA.sendsTo .service then t.placeHeld else t

/-! ### Bus-off (R181) -/

/-- Port A's held replies are discarded (R181, R200). -/
def State.dropHeld (s : State) : State := { s with heldStore := none, heldCommand := none }

/-- BUS_OFF: an ONLINE port becomes OFFLINE and discards its queue, the frame in transmission, and, on port
A, the held replies (R181, R200). Nothing on an OFFLINE port (log 3). -/
def execBusOff (port : Port) (s : State) : Host.Outcome State Fault Refusal :=
  .next <|
    if (s.port port).online then
      let t := s.setPort port
        { s.port port with link := .offline s.now, replies := [], status := none, sending := none }
      if port = .a then t.dropHeld else t
    else s

/-- LINK_RETURN: a port is ONLINE again 1 s after its bus-off (R181). Nothing on an ONLINE port (log 3). -/
def execLinkReturn (port : Port) (s : State) : Host.Outcome State Fault Refusal :=
  .next <|
    match (s.port port).link with
    | .offline since =>
      let s := s.advanceTo (since + 10000)
      s.setPort port { s.port port with link := .online }
    | .online => s

/-! ### The uptime clock (R169) -/

/-- UPTIME_TICK: a second of running time has passed; the clock rises by 1 and is held at 16,777,215 (R169). -/
def execUptimeTick (s : State) : Host.Outcome State Fault Refusal :=
  .next <|
    let s := s.advanceTo (s.faults.secondStart + 10000)
    { s with faults := { s.faults with uptime := min 16777215 (s.faults.uptime + 1), secondStart := s.now } }

end Sys2Proof.Machine
end

