-- ==== Sys2Proof/Machine/Commands.lean ====
section
/-! DEFINITION. The commands of COMMAND frames (R42, R43, R64, R65, R109, R117, R138, R151, R164, R176, R178,
R188 to R198), but for those of the configuration store. -/

namespace Sys2Proof.Machine

/-- An answer with result OK. -/
def answerOk (data : List Nat) : Option Answer := some ⟨.ok, data⟩

/-- An answer with result RANGE and no data. -/
def answerRange : Option Answer := some ⟨.range, []⟩

/-- The sender is SERVICE while SVC is INACTIVE (R166). -/
def State.lacksService (s : State) (src : NetSource) : Bool := decide (src = .service) && !s.lines.svc.active

/-! ### RELEASE (R42, R188) -/

/-- A scope of RELEASE as a base and a size exponent; none for arguments out of range (R42). -/
def releaseScope (scope a m : Nat) : Option (Nat × Nat) :=
  match scope with
  | 0 => if a ≤ 15 then some (a, 0) else none
  | 1 => if a ≤ 15 ∧ m ≤ 4 then some (a - a % 2 ^ m, m) else none
  | 2 => some (0, 4)
  | _ => none

/-- The channels of a scope on which the sender has an entry (R42). -/
def State.released (s : State) (src : NetSource) (base exponent : Nat) : List Channel :=
  allChannels.filter fun c =>
    decide (base ≤ c.val) && decide (c.val < base + 2 ^ exponent) && ((s.chan c).demand.list.net.get src).isSome

/-- RELEASE at the demand table (R42). -/
def State.release (scope a m : Nat) (src : NetSource) (s : State) : Taken :=
  match releaseScope scope a m with
  | none => ⟨s, answerRange⟩
  | some (base, exponent) =>
    let l := s.released src base exponent
    ⟨(l.foldl (fun t c => t.removeEntry src c) s).evaluateChanged s, answerOk [base, exponent, l.length]⟩

/-- RELEASE: argument bytes scope, channel or base, size exponent (R187, R188). -/
def execRelease (rx : RxHeader) (args : Vector Byte 7) (s : State) : Host.Outcome State Fault Refusal :=
  .next (s.takeCommand rx 1 (State.release (argByte args 0) (argByte args 1) (argByte args 2)))

/-! ### CLEAR_CHANNEL (R109, R110, R189) -/

/-- The sender may clear a channel (R109). -/
def State.mayClear (s : State) (src : NetSource) (c : Channel) : Bool :=
  (decide (src = .service) && s.lines.svc.active) || (s.profile c).permits src

/-- The items a CLEAR_CHANNEL of one channel reports (R109, R187). -/
def State.clearItems (s : State) (c : Channel) : List Nat :=
  let p := (s.chan c).prot
  [c.val, p.state.code, p.state.kindCode, p.retries]

/-- CLEAR_CHANNEL of one channel (R109). -/
def State.clearOne (s : State) (src : NetSource) (c : Channel) : Taken :=
  if s.mayClear src c then
    let t := (s.clearProtection c).evaluateMoved s c
    ⟨t, answerOk (t.clearItems c)⟩
  else ⟨s, some ⟨.notPermitted, s.clearItems c⟩⟩

/-- CLEAR_CHANNEL of every channel the sender may clear: all cleared, then those that left LOCKOUT
evaluated, both in ascending channel number (R47, R109). -/
def State.clearAll (s : State) (src : NetSource) : Taken :=
  let cleared := allChannels.filter (s.mayClear src)
  let left := cleared.filter fun c => (s.chan c).prot.state.locked
  ⟨(cleared.foldl State.clearProtection s).evaluateEach left,
    answerOk ([255] ++ bytes2 (channelMask cleared) ++ bytes2 (channelMask left))⟩

/-- CLEAR_CHANNEL at the protection unit (R109). -/
def State.clear (selector : Nat) (src : NetSource) (s : State) : Taken :=
  match channelOf selector with
  | some c => s.clearOne src c
  | none => if selector = 255 then s.clearAll src else ⟨s, answerRange⟩

/-- CLEAR_CHANNEL: argument byte selector (R187, R189). -/
def execClearChannel (rx : RxHeader) (args : Vector Byte 7) (s : State) : Host.Outcome State Fault Refusal :=
  .next (s.takeCommand rx 2 (State.clear (argByte args 0)))

/-! ### CLEAR_EMERGENCY (R164, R190) -/

/-- The latch becomes clear: EMERGENCY ends, and all channels are evaluated (R164). -/
def State.clearLatch (s : State) : State := (({ s with latch := false }).finish .emergency).evaluateAll

/-- The latch and the debounced state of EMG, as every answer to CLEAR_EMERGENCY carries them (R190). -/
def State.emergencyItems (s : State) : List Nat := [flagBit s.latch, flagBit s.lines.emg.active]

/-- CLEAR_EMERGENCY at the line inputs (R164). -/
def State.clearEmergency (src : NetSource) (s : State) : Taken :=
  if s.lacksService src then ⟨s, some ⟨.notPermitted, s.emergencyItems⟩⟩
  else if s.lines.emg.active then ⟨s, some ⟨.condition, s.emergencyItems⟩⟩
  else
    let t := if s.latch then s.clearLatch else s
    ⟨t, answerOk t.emergencyItems⟩

/-- CLEAR_EMERGENCY: no argument (R187, R190). -/
def execClearEmergency (rx : RxHeader) (_args : Vector Byte 7) (s : State) : Host.Outcome State Fault Refusal :=
  .next (s.takeCommand rx 3 State.clearEmergency)

/-! ### CLEAR_FAULTS (R176, R191) -/

/-- Every PASSIVE record removed, and the overflow flag cleared; reports that fall together with the command, taken after
it, find the list so (R176, R177). -/
def FaultList.clear (l : FaultList) (t : Moment) : FaultList :=
  ({ l with records := l.records.filter FaultRecord.active, overflow := false } : FaultList).settle t

/-- CLEAR_FAULTS at the fault list (R176). -/
def State.clearFaults (_src : NetSource) (s : State) : Taken :=
  let t := { s with faults := s.faults.clear s.now }
  ⟨t, answerOk [s.faults.records.length - t.faults.records.length, t.faults.records.length,
    flagBit t.faults.overflow]⟩

/-- CLEAR_FAULTS: no argument (R187, R191). -/
def execClearFaults (rx : RxHeader) (_args : Vector Byte 7) (s : State) : Host.Outcome State Fault Refusal :=
  .next (s.takeCommand rx 4 State.clearFaults)

/-! ### SHED_FLOOR (R151, R192) -/

/-- Floor level and remaining duration of a source, and L (R192). -/
def State.floorItems (s : State) (src : NetSource) : List Nat :=
  match s.sup.floors.get src with
  | some f => [f.level, ceilUnits (f.ends - s.now) 1000, s.sup.level]
  | none => [0, 0, s.sup.level]

/-- SHED_FLOOR at the supply supervisor (R151). -/
def State.shedFloor (level duration : Nat) (src : NetSource) (s : State) : Taken :=
  if s.lacksService src then ⟨s, some ⟨.notPermitted, s.floorItems .service⟩⟩
  else
    let t := s.setFloor src (floorOf level duration s.now)
    ⟨t, answerOk (t.floorItems src)⟩

/-- SHED_FLOOR: argument bytes level, duration (R187, R192). -/
def execShedFloor (rx : RxHeader) (args : Vector Byte 7) (s : State) : Host.Outcome State Fault Refusal :=
  .next (s.takeCommand rx 5 (State.shedFloor (argByte args 0) (argByte args 1)))

/-! ### FLASH_SYNC (R138) -/

/-- The pattern runs (R136). -/
def State.patternRuns (s : State) (p : Pattern) : Bool := decide (s.gens[p].state ≠ .stopped)

/-- FLASH_SYNC at the switch controller (R138). -/
def State.flashSync (mask : Nat) (_src : NetSource) (s : State) : Taken :=
  if 15 < mask then ⟨s, answerRange⟩
  else
    let l := allPatterns.filter fun p => mask.testBit p.val && s.patternRuns p
    ⟨l.foldl State.startOnPhase s, answerOk [(l.map fun p => 2 ^ p.val).sum]⟩

/-- FLASH_SYNC: argument byte pattern mask (R138, R187). -/
def execFlashSync (rx : RxHeader) (args : Vector Byte 7) (s : State) : Host.Outcome State Fault Refusal :=
  .next (s.takeCommand rx 6 (State.flashSync (argByte args 0)))

/-! ### QUERY_CHANNEL (R65, R193) -/

/-- The source of a winner, 0 for none (R65). -/
def winnerSource (w : Option Winner) : Nat := match w with | some x => Source.code x.source | none => 0

/-- The class of a winner, 0 for none (R65). -/
def winnerClass (w : Option Winner) : Nat := match w with | some x => Class.code x.cls | none => 0

/-- The command of a winner, OFF for none (R65). -/
def winnerCommand (w : Option Winner) : Nat := match w with | some x => x.command.code | none => 0

/-- The items of QUERY_CHANNEL (R65, R187). -/
def State.channelItems (s : State) (c : Channel) : List Nat :=
  let o := (s.chan c).sw.out
  let a := (s.chan c).arb
  [field 0 2 o.code + field 2 2 o.modeCode + field 4 2 a.granted.code]
    ++ bytes2 (field 0 10 o.applied + field 10 3 (winnerCommand a.winner))
    ++ bytes2 (field 0 10 a.granted.item + field 10 3 (winnerSource a.winner) + field 13 3 (winnerClass a.winner))
    ++ [field 0 6 a.status.code]

/-- A query of one channel: RANGE above 15, its items otherwise (R65, R117). -/
def State.queryOf (items : State → Channel → List Nat) (n : Nat) (_src : NetSource) (s : State) : Taken :=
  match channelOf n with
  | some c => ⟨s, answerOk (items s c)⟩
  | none => ⟨s, answerRange⟩

/-- QUERY_CHANNEL: argument byte channel (R65, R187, R193). -/
def execQueryChannel (rx : RxHeader) (args : Vector Byte 7) (s : State) : Host.Outcome State Fault Refusal :=
  .next (s.takeCommand rx 7 (State.queryOf State.channelItems (argByte args 0)))

/-! ### QUERY_PROTECTION (R77, R92, R117, R194) -/

/-- The items of QUERY_PROTECTION (R117, R187). -/
def State.protectionItems (s : State) (c : Channel) : List Nat :=
  let p := (s.chan c).prot
  let r := (s.chan c).sense
  [field 0 2 p.state.code + field 2 2 p.state.kindCode + field 4 3 p.retries,
    s.heatPercent c, p.state.delayRemaining s.now,
    field 0 1 (flagBit p.openLoadOn) + field 1 1 (flagBit p.openLoadOff) + field 2 1 (flagBit p.shortToSupply)
      + field 3 1 (flagBit r.valid) + field 4 1 (flagBit r.saturated)] ++ bytes2 r.current

/-- QUERY_PROTECTION: argument byte channel (R117, R187, R194). -/
def execQueryProtection (rx : RxHeader) (args : Vector Byte 7) (s : State) : Host.Outcome State Fault Refusal :=
  .next (s.takeCommand rx 8 (State.queryOf State.protectionItems (argByte args 0)))

/-! ### QUERY_ENTRY (R43, R195) -/

/-- The items of one entry, from byte 3 (R43, R187). -/
def entryItems (t : Moment) (src : Source) (e : Entry) : List Nat :=
  [field 0 3 (Source.code src) + field 3 3 (Class.code e.cls),
    field 0 3 e.command.code + field 3 1 (flagBit e.command.isSpent), e.command.argument, e.remaining t]

/-- QUERY_ENTRY at the demand table (R43). -/
def State.queryEntry (n index : Nat) (_src : NetSource) (s : State) : Taken :=
  match channelOf n with
  | none => ⟨s, answerRange⟩
  | some c =>
    let l := (s.chan c).demand.list.entries
    match l[index]? with
    | some (src, e) => ⟨s, answerOk (l.length :: entryItems s.now src e)⟩
    | none => ⟨s, some ⟨.range, [l.length]⟩⟩

/-- QUERY_ENTRY: argument bytes channel, index (R43, R187, R195). -/
def execQueryEntry (rx : RxHeader) (args : Vector Byte 7) (s : State) : Host.Outcome State Fault Refusal :=
  .next (s.takeCommand rx 9 (State.queryEntry (argByte args 0) (argByte args 1)))

/-! ### QUERY_ZONE (R77, R156, R196) -/

/-- The items of part 0 of QUERY_ZONE (R156, R187, R196). -/
def State.zoneItems (s : State) : List Nat :=
  bytes2 s.scan.supply ++ bytes2 s.scan.feeder
    ++ [field 0 2 s.sup.level + field 2 2 s.sup.thermalLevel + field 4 2 s.sup.voltageLevel
        + field 6 2 s.sup.floorComponent,
      field 0 1 (flagBit s.latch) + field 1 1 (flagBit s.sup.hold) + field 2 2 s.resetCause.code]

/-- QUERY_ZONE (R196). -/
def State.queryZone (part : Nat) (_src : NetSource) (s : State) : Taken :=
  match part with
  | 0 => ⟨s, answerOk s.zoneItems⟩
  | 1 => ⟨s, answerOk (bytes3 s.faults.uptime)⟩
  | _ => ⟨s, answerRange⟩

/-- QUERY_ZONE: argument byte part (R187, R196). -/
def execQueryZone (rx : RxHeader) (args : Vector Byte 7) (s : State) : Host.Outcome State Fault Refusal :=
  .next (s.takeCommand rx 10 (State.queryZone (argByte args 0)))

/-! ### READ_FAULT (R178, R197) -/

/-- The items of a record in a part (R178, R187). -/
def FaultRecord.items (r : FaultRecord) (count part : Nat) : List Nat :=
  if part = 0 then [r.key.code, r.key.channelCode, r.key.sourceCode, flagBit r.active, r.count, count]
  else bytes3 r.first ++ bytes3 r.last

/-- READ_FAULT at the fault list (R178). -/
def State.readFault (index part : Nat) (_src : NetSource) (s : State) : Taken :=
  if 1 < part then ⟨s, answerRange⟩
  else
    match s.faults.records[index]? with
    | some r => ⟨s, answerOk (r.items s.faults.records.length part)⟩
    | none => ⟨s, some ⟨.range, [0, 0, 0, 0, 0, s.faults.records.length]⟩⟩

/-- READ_FAULT: argument bytes index, part (R178, R187, R197). -/
def execReadFault (rx : RxHeader) (args : Vector Byte 7) (s : State) : Host.Outcome State Fault Refusal :=
  .next (s.takeCommand rx 11 (State.readFault (argByte args 0) (argByte args 1)))

/-! ### READ_LIMIT_LOG (R64, R198) -/

/-- The channels a selector names: one, all for 255, none otherwise (R64). -/
def logChannels (selector : Nat) : List Channel :=
  match channelOf selector with
  | some c => [c]
  | none => if selector = 255 then allChannels else []

/-- The union of the limit-cause logs of some channels (R64). -/
def State.readLogs (s : State) (l : List Channel) : CauseSet :=
  l.foldl (fun t c => t.union (s.chan c).arb.log) CauseSet.empty

/-- The limit-cause logs of some channels emptied (R64). -/
def State.clearLogs (s : State) (l : List Channel) : State :=
  l.foldl (fun t c => t.withArb c fun a => { a with log := CauseSet.empty }) s

/-- READ_LIMIT_LOG at the arbitration unit (R64). -/
def State.readLimitLog (selector flag : Nat) (_src : NetSource) (s : State) : Taken :=
  if logChannels selector = [] ∨ 1 < flag then ⟨s, answerRange⟩
  else
    ⟨if flag = 1 then s.clearLogs (logChannels selector) else s,
      answerOk [selector, (s.readLogs (logChannels selector)).code]⟩

/-- READ_LIMIT_LOG: argument bytes selector, clear flag (R64, R187, R198). -/
def execReadLimitLog (rx : RxHeader) (args : Vector Byte 7) (s : State) : Host.Outcome State Fault Refusal :=
  .next (s.takeCommand rx 12 (State.readLimitLog (argByte args 0) (argByte args 1)))

end Sys2Proof.Machine
end

