-- ==== Sys2Proof/Machine/Store.lean ====
section
/-! DEFINITION. The configuration store (chapter 1): CONFIG_READ, CONFIG_WRITE with the effects of a write,
CONFIG_STORE and its completion. -/

namespace Sys2Proof.Machine

/-! ### CONFIG_READ (R11, R199) -/

/-- The reply data of CONFIG_READ and CONFIG_WRITE: table, index, field and value (R187). -/
def configItems (table index number value : Nat) : List Nat := [table, index, number] ++ bytes2 value

/-- CONFIG_READ at the configuration store; a field it cannot name is answered with value 0 (R11, R199;
log 14). -/
def State.configRead (table index number : Nat) (_src : NetSource) (s : State) : Taken :=
  match nameField table index number with
  | some n => ⟨s, answerOk (configItems table index number (s.cfg.read n))⟩
  | none => ⟨s, some ⟨.range, configItems table index number 0⟩⟩

/-- CONFIG_READ: argument bytes table, index, field (R187, R199). -/
def execConfigRead (rx : RxHeader) (args : Vector Byte 7) (s : State) : Host.Outcome State Fault Refusal :=
  .next (s.takeCommand rx 13 (State.configRead (argByte args 0) (argByte args 1) (argByte args 2)))

/-! ### CONFIG_WRITE: the checks (R12, R13) -/

/-- A profile field's channel is OFF, and READY or WARM; other fields need nothing (R12 check 6, R13). -/
def State.mayWrite (s : State) : ConfigField → Bool
  | .profile c _ => decide ((s.chan c).sw.out = .off) && (s.chan c).prot.state.free
  | .zone _ => true
  | .lapse _ => true
  | .pattern _ _ => true
  | .line _ _ => true

/-- The result of the checks of R12, in their order. While the store reply waits to be placed, check 2 answers as it
does while the store state is STORING (R15, R16; log 27). -/
def State.checkWrite (s : State) (src : NetSource) (n : Option ConfigField) (v : Nat) : ReplyResult :=
  if ¬(src = .service ∧ s.lines.svc.active) then .notPermitted
  else if s.store ≠ .idle ∨ s.heldStore.isSome then .busy
  else
    match n with
    | none => .range
    | some n =>
      if !n.inRange v then .range
      else if !(s.cfg.write n v).relatedAt n then .range
      else if !s.mayWrite n then .condition
      else .ok

/-! ### CONFIG_WRITE: the effects (R4 to R10, R146) -/

/-- The effect of a changed profile field beside its value, before the evaluation (R4). -/
def State.profileEffect (s : State) (c : Channel) (f : ProfileField) : State :=
  match f with
  | .retryLimit => s.withProt c fun r => { r with retries := min r.retries (s.profile c).retryLimit }
  | .openLoad => s.withProt c fun r => { r with onCount := 0, offCount := 0, offWait := .since s.now }
  | .pullUp => s.withProt c fun r => { r with onCount := 0, offCount := 0, offWait := .since s.now }
  | _ => s

/-- The voltage runs tested after a write of a threshold (R5, R146). -/
def State.retestRuns (s : State) : State := { s with sup := s.sup.retest s.cfg.zone s.now }

/-- The start grace in force has passed: the wait ends at the write (R6). -/
def State.testGrace (s : State) : State :=
  match s.graceStart with
  | none => s
  | some t => if t + 1000 * s.cfg.zone.startGrace ≤ s.now then s.endGrace else s

/-- The effect of a changed zone field beside its value (R5, R6, R146; log 15). -/
def State.zoneEffect (s : State) (f : ZoneField) : State :=
  match f with
  | .lv1 => s.retestRuns
  | .lv2 => s.retestRuns
  | .lv3 => s.retestRuns
  | .admissionInterval => s.admitQueued
  | .startGrace => s.testGrace
  | .statusInterval => s
  | .feederNominal => s
  | .feederShift => s
  | .feederWarm => s

/-- A changed debounce length: the debounced state changes at the write where it is already reached (R10). -/
def State.testDebounce (s : State) (i : Fin 4) : State :=
  match (s.line (.conf i)).debounce with
  | none => s
  | some t => if t + s.debounceLength (.conf i) ≤ s.now then s.settle (.conf i) false else s

/-- The effect of a changed line field beside its value, given the line's settings before the write (R10). -/
def State.lineEffect (s : State) (i : Fin 4) (f : LineField) (old : LineSettings) : State :=
  match f with
  | .polarity => s.reconsider (.conf i)
  | .debounce => s.testDebounce i
  | .mask => s.recomputeLines fun c => old.binds c || s.cfg.line[i].binds c
  | .command => s.recomputeLines fun c => old.binds c || s.cfg.line[i].binds c

/-- The effect of an accepted write that changes a field, after the field holds the new value; old is the
configuration before the write (R4 to R10, R47). -/
def State.writeEffect (s : State) (n : ConfigField) (old : WorkingConfig) : State :=
  match n with
  | .profile c f => (s.profileEffect c f).evaluate c
  | .zone f => s.zoneEffect f
  | .lapse _ => s
  | .pattern _ _ => s
  | .line i f => s.lineEffect i f old.line[i]

/-- The effect of an accepted write of the value the field already holds: it changes nothing, but a write to a profile
field is a cause of evaluation all the same (R12, R47; log 13). -/
def State.rewriteEffect (s : State) : ConfigField → State
  | .profile c _ => s.evaluate c
  | .zone _ => s
  | .lapse _ => s
  | .pattern _ _ => s
  | .line _ _ => s

/-- An accepted write (R12). -/
def State.applyWrite (s : State) (n : ConfigField) (v : Nat) : State :=
  if s.cfg.read n = v then s.rewriteEffect n else ({ s with cfg := s.cfg.write n v }).writeEffect n s.cfg

/-- The value a field holds, 0 for a field the command does not name (R12, R199; log 14). -/
def State.valueOf (s : State) (n : Option ConfigField) : Nat :=
  match n with
  | some n => s.cfg.read n
  | none => 0

/-- CONFIG_WRITE at the configuration store (R12). -/
def State.configWrite (table index number value : Nat) (src : NetSource) (s : State) : Taken :=
  let n := nameField table index number
  let r := s.checkWrite src n value
  let t := match r, n with
    | .ok, some n => s.applyWrite n value
    | _, _ => s
  ⟨t, some ⟨r, configItems table index number (t.valueOf n)⟩⟩

/-- CONFIG_WRITE: argument bytes table, index, field, value in two bytes (R187, R199). -/
def execConfigWrite (rx : RxHeader) (args : Vector Byte 7) (s : State) : Host.Outcome State Fault Refusal :=
  .next (s.takeCommand rx 14
    (State.configWrite (argByte args 0) (argByte args 1) (argByte args 2) (argWord args 3 4)))

/-! ### CONFIG_STORE and its completion (R14 to R16, R200) -/

/-- CONFIG_STORE at the configuration store: refused at once, or accepted without a reply (R14). -/
def State.configStore (src : NetSource) (s : State) : Taken :=
  if ¬(src = .service ∧ s.lines.svc.active) then ⟨s, some ⟨.notPermitted, []⟩⟩
  else if s.store ≠ .idle ∨ s.heldStore.isSome then ⟨s, some ⟨.busy, []⟩⟩
  else ⟨{ s with image := s.cfg.toImage, store := .storing s.now }, none⟩

/-- CONFIG_STORE: no argument (R14, R187). -/
def execConfigStore (rx : RxHeader) (_args : Vector Byte 7) (s : State) : Host.Outcome State Fault Refusal :=
  .next (s.takeCommand rx 15 State.configStore)

/-- The reply to an accepted CONFIG_STORE made at its completion: placed, held while a REPLY to SERVICE is
queued or in transmission, or discarded by an OFFLINE port (R16, R200). -/
def State.placeStoreReply (s : State) (result : ReplyResult) : State :=
  let r := (Answer.mk result []).toReply 15 .service
  if s.portA.online && s.portA.hasReply .service then { s with heldStore := some r } else s.queueReply r

/-- What is read back matches what was written: every value and the check word (R16). -/
def sameImage (written readBack : StoredImage) : Bool :=
  decide (readBack.values = written.values) && decide (readBack.check = written.check)

/-- A store completes with what was read back (R16). -/
def State.completeStore (s : State) (readBack : StoredImage) : State :=
  let t := { s with store := .idle }
  if sameImage s.image readBack then t.placeStoreReply .ok
  else (({ t with image := { readBack with spoiled := true } }).occur .storeFailed).placeStoreReply .condition

/-- STORE_COMPLETION: the store completes; the operand is what is read back, none for the image as written
(R16; log 18). Nothing in store state IDLE (log 3). -/
def execStoreCompletion (readBack : Option StoredImage) (s : State) : Host.Outcome State Fault Refusal :=
  .next <|
    match s.store with
    | .idle => s
    | .storing _ => s.completeStore (readBack.getD s.image)

end Sys2Proof.Machine
end

