-- ==== Sys2Proof/Machine/Resets.lean ====
section
/-! DEFINITION. The three resets: the load (R18, R19) and the values every block takes (R21, R45, R66, R78, R94,
R118, R141, R157, R167, R179 to R182). -/

namespace Sys2Proof.Machine

/-- The stored image after a reset: a reset that abandons a store spoils it (R17, R19). -/
def State.imageAfterReset (s : State) : StoredImage :=
  match s.store with
  | .idle => s.image
  | .storing _ => { s.image with spoiled := true }

/-- The protection state kept across EXTERNAL at a moment: a short trip's retry delay starts again (R118). -/
def ProtState.restarted (p : ProtState) (delay t : Moment) : ProtState :=
  match p with
  | .trippedShort _ => .trippedShort (.running (t + delay))
  | .ready => .ready
  | .warm => .warm
  | .trippedOverload => .trippedOverload
  | .lockout k => .lockout k

/-- The protection record after a reset of a kind at a moment, under the loaded profile (R94, R118). -/
def ProtRecord.afterReset (old : ProtRecord) (cause : ResetCause) (p : Profile) (t : Moment) : ProtRecord :=
  let new := (ChannelState.atReset t).prot
  match cause with
  | .powerOn => new
  | .supplyDip => { new with heat := Profile.warmLevel p }
  | .external =>
    { new with
      heat := old.heat
      state := old.state.restarted p.retryLength t
      retries := min old.retries p.retryLimit }

/-- The supervisor after a reset (R94, R157). -/
def Supervisor.afterReset (old : Supervisor) (cause : ResetCause) (z : Zone) (t : Moment) : Supervisor :=
  match cause with
  | .powerOn => Supervisor.atReset t
  | .supplyDip => { Supervisor.atReset t with heat := Zone.warmLevel z }
  | .external => { Supervisor.atReset t with heat := old.heat }

/-- The lines after a reset: levels read from the pins, debounces started where the raw state is ACTIVE (R167). -/
def linesAfterReset (pins : ResetPins) (g : WorkingConfig) (t : Moment) : Lines :=
  ⟨Vector.ofFn fun i => LineRecord.atReset t pins.conf[i] (pins.conf[i] == LineSettings.activeLevel g.line[i]),
    LineRecord.atReset t pins.emg (!pins.emg), LineRecord.atReset t pins.svc pins.svc⟩

/-- The record stays ACTIVE across EXTERNAL: LOCKOUT of a channel kept in LOCKOUT, EMERGENCY with the latch
set (R180). -/
def State.keepsActive (s : State) : FaultKey → Bool
  | .lockout c => (s.chan c).prot.state.locked
  | .emergency => s.latch
  | _ => false

/-- The fault list after a reset, before the load's report (R179, R180). -/
def State.faultsAfterReset (s : State) (cause : ResetCause) : FaultList :=
  match cause with
  | .powerOn => ⟨[], false, 0, s.now, ⟨s.now, ⟨[], false⟩, []⟩⟩
  | .supplyDip => ⟨[], false, 0, s.now, ⟨s.now, ⟨[], false⟩, []⟩⟩
  | .external =>
    ({ s.faults with
      records := s.faults.records.map fun r => { r with active := r.active && s.keepsActive r.key }
      secondStart := s.now } : FaultList).settle s.now

/-- The report of a load that rejects its image (R18). -/
def State.reportLoad (s : State) : State := if s.image.accepted then s else s.occur .configDefaulted

/-- A start grace of 0 ends with the load (R38; log 16). -/
def State.startGraceAtReset (s : State) : State := if s.cfg.zone.startGrace = 0 then s.endGrace else s

/-- The part after a reset of a kind, with the pins as they stand at its end (log 11). -/
def State.afterReset (s : State) (cause : ResetCause) (pins : ResetPins) : State :=
  let image := s.imageAfterReset
  let g := image.load
  let t := s.now
  ({ cfg := g
     image := image
     store := .idle
     resetCause := cause
     chans := Vector.ofFn fun c =>
       { ChannelState.atReset t with prot := (s.chan c).prot.afterReset cause g.profile[c] t }
     lapsed := PerSource.const false
     graceStart := some t
     scan := ⟨0, 0, t⟩
     queue := ⟨[], [], none⟩
     gens := Vector.replicate 4 ⟨0, .stopped⟩
     sup := s.sup.afterReset cause g.zone t
     lines := linesAfterReset pins g t
     latch := decide (cause = .external) && s.latch
     faults := s.faultsAfterReset cause
     portA := PortRecord.atReset t
     portB := PortRecord.atReset t
     heldStore := none
     heldCommand := none
     zoneAddress := pins.straps.val
     now := t
     pending := s.pending } : State).reportLoad.startGraceAtReset

/-- POWER_ON: a reset after power was applied (R21). -/
def execPowerOn (pins : ResetPins) (s : State) : Host.Outcome State Fault Refusal :=
  .next (s.afterReset .powerOn pins)

/-- SUPPLY_DIP: a reset in which the logic supply fell below its threshold (R21). -/
def execSupplyDip (pins : ResetPins) (s : State) : Host.Outcome State Fault Refusal :=
  .next (s.afterReset .supplyDip pins)

/-- EXTERNAL: a reset by the reset pin (R21). -/
def execExternal (pins : ResetPins) (s : State) : Host.Outcome State Fault Refusal :=
  .next (s.afterReset .external pins)

/-! ### The kind of a reset (R21) -/

/-- What decides the kind of a reset, as it stands when the reset ends: whether power was applied to the part after it
last ran, whether the internal logic supply fell below its reset threshold during the reset, and whether the reset pin
was asserted (R21). -/
structure ResetCourse where
  powerApplied : Bool
  supplyFell : Bool
  pinAsserted : Bool
deriving DecidableEq, Repr

/-- The kind of a reset, decided when it ends (R21). -/
def ResetCourse.kind (x : ResetCourse) : ResetCause :=
  if x.powerApplied then .powerOn else if x.supplyFell then .supplyDip else .external

/-- The command that is a reset of a kind. -/
def resetCommand (k : ResetCause) (pins : ResetPins) : Instr :=
  match k with
  | .powerOn => .powerOn pins
  | .supplyDip => .supplyDip pins
  | .external => .external pins

/-- The end of a reset: its kind is decided, and the reset of that kind stands at the front of the queue and is taken
next (R21; log 11). -/
def State.endReset (s : State) (x : ResetCourse) (pins : ResetPins) : State :=
  { s with pending := resetCommand x.kind pins :: s.pending }

end Sys2Proof.Machine
end

