-- ==== Sys2Proof/Machine/Sense.lean ====
section
/-! DEFINITION. The sense scanner (chapter 4): readings, the scan and its deliveries, and the midpoint sample
of a PWM channel. -/

namespace Sys2Proof.Machine

/-! ### Readings (R70, R75) -/

/-- A channel current in mA as a reading in 10 mA: rounded down, 6000 from 60.00 A, 0 below zero (R70). -/
def readCurrent (milliamps : Int) : Nat := min 6000 (milliamps.toNat / 10)

/-- A voltage in mV as a reading in 0.1 V: rounded down, 600 from 60.0 V, 0 below zero (R70, R75). -/
def readVoltage (millivolts : Int) : Nat := min 600 (millivolts.toNat / 100)

/-- A feeder current in mA as a reading in 0.1 A: rounded down, 2000 from 200.0 A, 0 below zero (R75). -/
def readFeeder (milliamps : Int) : Nat := min 2000 (milliamps.toNat / 100)

/-! ### Recording (R71, R74) -/

/-- An on-state current sample recorded (R71). -/
def SenseRecord.takeCurrent (r : SenseRecord) (reading : Nat) : SenseRecord :=
  { r with current := reading, valid := true, saturated := decide (reading = 6000) }

/-- What a scan records in one sense record, by the sample kind (R68, R71, R74). -/
def SenseRecord.scanned (r : SenseRecord) (milliamps millivolts : Int) : SenseRecord :=
  match r.kind with
  | .current => r.takeCurrent (readCurrent milliamps)
  | .voltage => { r with voltage := readVoltage millivolts }
  | .periodic _ _ _ => r

/-- The recording of a scan: the zone sample, and one sample of each channel that is not PERIODIC (R68, R75). -/
def State.recordScan (s : State) (m : ScanReadings) : State :=
  let s := { s with scan := ⟨readFeeder m.feeder, readVoltage m.supply, s.now⟩ }
  allChannels.foldl (fun t c => t.withSense c fun r => r.scanned m.current[c] m.voltage[c]) s

/-! ### Delivering (R71, R74, R75) -/

/-- All the deliveries a scan makes, in the order that stands where the command names none. -/
def allDeliveries : List Delivery := allChannels.map Delivery.channel ++ [.zone]

/-- The order of a scan's deliveries: those the command names, each once, then the rest (R68, R76; log 7). -/
def deliveryOrder (order : List Delivery) : List Delivery :=
  order.dedup ++ allDeliveries.filter fun d => decide (d ∉ order)

/-- One delivery of a scan whose recording left the state r: a sample reaches its block as recorded, by the
sample kind and the output state as they stood at the scan (R71, R74, R75). -/
def State.deliver (r : State) (s : State) : Delivery → State
  | .zone => s.deliverZone r.scan.supply
  | .channel c =>
    let x := r.chan c
    match x.sense.kind with
    | .current => s.deliverCurrent c x.sense.current x.sense.saturated
    | .voltage => s.deliverVoltage c (decide (x.sw.out = .off)) x.sense.voltage r.scan.supply
    | .periodic _ _ _ => s

/-- SCAN: one scan, 1 ms after the last, recorded and then delivered (R68, R76). -/
def execScan (m : ScanReadings) (order : List Delivery) (s : State) : Host.Outcome State Fault Refusal :=
  .next <|
    let r := (s.advanceTo (s.scan.last + 10)).recordScan m
    (deliveryOrder order).foldl r.deliver r

/-- PWM_MIDPOINT: the midpoint of a period whose sample is still to be taken gives one on-state sample,
recorded and delivered (R72). Nothing where no midpoint is pending (log 3). -/
def execPwmMidpoint (c : Channel) (milliamps : Int) (s : State) : Host.Outcome State Fault Refusal :=
  .next <|
    match (s.chan c).sense.kind with
    | .periodic start e true =>
      let reading := readCurrent milliamps
      let s := (s.advanceTo (start + e / 2)).withSense c fun r =>
        { r.takeCurrent reading with kind := .periodic start e false }
      s.deliverCurrent c reading (decide (reading = 6000))
    | _ => s

end Sys2Proof.Machine
end

