-- ==== Sys2Proof/Machine/Dispatch.lean ====
section
/-! DEFINITION. The meaning of every command, one arm for each constructor of Instr. -/

namespace Sys2Proof.Machine

/-- The effect of a command on everything but the queue. -/
def exec (i : Instr) (s : State) : Host.Outcome State Fault Refusal :=
  match i with
  | .powerOn pins => Sys2Proof.Machine.execPowerOn pins s
  | .supplyDip pins => Sys2Proof.Machine.execSupplyDip pins s
  | .external pins => Sys2Proof.Machine.execExternal pins s
  | .demand rx data => Sys2Proof.Machine.execDemand rx data s
  | .pulseTimerExpiry src c => Sys2Proof.Machine.execPulseTimerExpiry src c s
  | .lapse src c => Sys2Proof.Machine.execLapse src c s
  | .startGraceEnd => Sys2Proof.Machine.execStartGraceEnd s
  | .admission => Sys2Proof.Machine.execAdmission s
  | .inrushTimerExpiry c => Sys2Proof.Machine.execInrushTimerExpiry c s
  | .allowanceTimerExpiry c => Sys2Proof.Machine.execAllowanceTimerExpiry c s
  | .periodBoundary c => Sys2Proof.Machine.execPeriodBoundary c s
  | .phaseTimerExpiry p => Sys2Proof.Machine.execPhaseTimerExpiry p s
  | .scan readings order => Sys2Proof.Machine.execScan readings order s
  | .pwmMidpoint c current => Sys2Proof.Machine.execPwmMidpoint c current s
  | .offTimeWaitComplete c => Sys2Proof.Machine.execOffTimeWaitComplete c s
  | .fuseTick c => Sys2Proof.Machine.execFuseTick c s
  | .retryDelayExpiry c => Sys2Proof.Machine.execRetryDelayExpiry c s
  | .stableRunExpiry c => Sys2Proof.Machine.execStableRunExpiry c s
  | .feederFuseTick => Sys2Proof.Machine.execFeederFuseTick s
  | .floorExpiry src => Sys2Proof.Machine.execFloorExpiry src s
  | .lineLevelChange line high => Sys2Proof.Machine.execLineLevelChange line high s
  | .debounceExpiry line floorFirst => Sys2Proof.Machine.execDebounceExpiry line floorFirst s
  | .release rx args => Sys2Proof.Machine.execRelease rx args s
  | .clearChannel rx args => Sys2Proof.Machine.execClearChannel rx args s
  | .clearEmergency rx args => Sys2Proof.Machine.execClearEmergency rx args s
  | .clearFaults rx args => Sys2Proof.Machine.execClearFaults rx args s
  | .shedFloor rx args => Sys2Proof.Machine.execShedFloor rx args s
  | .flashSync rx args => Sys2Proof.Machine.execFlashSync rx args s
  | .queryChannel rx args => Sys2Proof.Machine.execQueryChannel rx args s
  | .queryProtection rx args => Sys2Proof.Machine.execQueryProtection rx args s
  | .queryEntry rx args => Sys2Proof.Machine.execQueryEntry rx args s
  | .queryZone rx args => Sys2Proof.Machine.execQueryZone rx args s
  | .readFault rx args => Sys2Proof.Machine.execReadFault rx args s
  | .readLimitLog rx args => Sys2Proof.Machine.execReadLimitLog rx args s
  | .configRead rx args => Sys2Proof.Machine.execConfigRead rx args s
  | .configWrite rx args => Sys2Proof.Machine.execConfigWrite rx args s
  | .configStore rx args => Sys2Proof.Machine.execConfigStore rx args s
  | .unknownCommand rx code args => Sys2Proof.Machine.execUnknownCommand rx code args s
  | .storeCompletion readBack => Sys2Proof.Machine.execStoreCompletion readBack s
  | .statusDue port => Sys2Proof.Machine.execStatusDue port s
  | .takeIntoTransmission port => Sys2Proof.Machine.execTakeIntoTransmission port s
  | .frameSent port => Sys2Proof.Machine.execFrameSent port s
  | .busOff port => Sys2Proof.Machine.execBusOff port s
  | .linkReturn port => Sys2Proof.Machine.execLinkReturn port s
  | .uptimeTick => Sys2Proof.Machine.execUptimeTick s

end Sys2Proof.Machine
end

