-- ==== Sys2Proof/Safety.lean ====
section
/-! DEFINITION. What the statements speak in: the invariants the rules give the part, block by block, and what an
evaluation leaves unchanged. -/

namespace Sys2Proof.Machine

/-! ### Fault list (R170, R173) -/

/-- A record the list may hold: counts and times in their ranges and in their order, an event PASSIVE (R170). -/
def FaultRecord.Ok (r : FaultRecord) (uptime : Nat) : Prop :=
  1 ≤ r.count ∧ r.count ≤ 255 ∧ r.first ≤ r.last ∧ r.last ≤ uptime ∧ (r.key.isEvent = true → r.active = false)

/-- Records as R170 and R173 have them: never more than 16, nor two with the same key. -/
def FaultRecords.Ok (l : FaultRecords) (uptime : Nat) : Prop :=
  l.records.length ≤ 16 ∧ (l.records.map FaultRecord.key).Nodup ∧ ∀ r ∈ l.records, r.Ok uptime

/-- Reports that fall together: they found records in order, and reached the list in the order of the uptime clock. -/
def Together.Ok (b : Together) (uptime : Nat) : Prop :=
  b.before.Ok uptime ∧ (∀ e ∈ b.events, e.uptime ≤ uptime ∧ ∀ r ∈ b.before.records, r.last ≤ e.uptime)
    ∧ b.events.Pairwise fun d e => d.uptime ≤ e.uptime

/-- A fault list as R169, R170 and R175 have it: the records in order, the uptime clock in its range, and the list the one
that the latest reports to fall together have made. -/
def FaultList.Ok (l : FaultList) : Prop :=
  l.contents.Ok l.uptime ∧ l.uptime ≤ 16777215 ∧ l.together.Ok l.uptime ∧ l.contents = l.together.after

/-! ### Working configuration (R2) -/

/-- Every field in its range, and the relations of R2. -/
def State.ConfigOk (s : State) : Prop := s.cfg.valid = true

/-! ### Demand lists (R23, R25, R37, R39, R40) -/

/-- A demand with a duty from 0 to 1000 ‰ in steps of 4 (R23, R27). -/
def Ask.Ok : Ask → Prop
  | .dim d => d ≤ 1000 ∧ d % 4 = 0
  | .off => True
  | .on => True
  | .flash _ => True

/-- A command with its duty or its pulse length in range (R23). -/
def EntryCommand.Ok : EntryCommand → Prop
  | .ask a => a.Ok
  | .pulse n _ => 10 ≤ n ∧ n ≤ 2550 ∧ n % 10 = 0

/-- A class within the ceiling of a network source; SERVICE has FORCE (R25). -/
def classOk (src : NetSource) (k : Class) : Prop :=
  match src with
  | .cab => Class.code k ≤ 2
  | .body => Class.code k ≤ 2
  | .drive => Class.code k ≤ 3
  | .service => k = .force

/-- An entry of a network source (R23, R25, R32). -/
def Entry.NetworkOk (e : Entry) (src : NetSource) : Prop := classOk src e.cls ∧ e.command.Ok ∧ e.deadline ≠ none

/-- A FALLBACK entry: class COMFORT, no deadline, no pulse (R23, R37). -/
def Entry.FallbackOk (e : Entry) : Prop :=
  e.cls = .comfort ∧ e.deadline = none ∧
    match e.command with
    | .ask a => a.Ok
    | .pulse _ _ => False

/-- The entries of a list, and no FALLBACK entry beside a network entry (R23, R25, R37). -/
def DemandList.Ok (l : DemandList) : Prop :=
  (∀ src e, l.net.get src = some e → e.NetworkOk src) ∧ (∀ e, l.fallback = some e → e.FallbackOk)
    ∧ (l.hasNetwork = true → l.fallback = none)

/-- The demand table: lists in order, SERVICE entries only while SVC is ACTIVE (R39), every LINE entry the one
the lines call for (R40), and a last network winner that an entry could hold (R36). -/
def State.DemandsOk (s : State) : Prop :=
  ∀ c : Channel,
    (s.chan c).demand.list.Ok
      ∧ ((s.chan c).demand.list.net.service ≠ none → s.lines.svc.active = true)
      ∧ (s.chan c).demand.list.line = s.lineEntry c
      ∧ (∀ a, (s.chan c).demand.lastNetworkWinner = some a → a.Ok)

/-! ### Arbitration (R46 to R49, R60 to R62) -/

/-- The arbitration record of channel c, and the pair handed over, are what an evaluation would make of the
inputs as they stand (R46, R48, R61, R62). -/
def State.Settled (s : State) (c : Channel) : Prop :=
  (s.chan c).arb.winner = (s.judge c).1
    ∧ (s.chan c).arb.granted = (s.judge c).2.out.grant
    ∧ (s.chan c).arb.status = (s.judge c).2.causes
    ∧ (s.chan c).sw.granted = (s.chan c).arb.granted
    ∧ (s.chan c).sw.cls = (s.chan c).arb.winner.map Winner.cls

/-- Every channel is settled: no change of an input stands without its evaluation (R47). -/
def State.AllSettled (s : State) : Prop := ∀ c : Channel, s.Settled c

/-- The duty in per mille an output grants; STEADY and FLASH grant 1000, OFF 0 (R46). -/
def Granted.duty : Granted → Nat
  | .off => 0
  | .steady => 1000
  | .pwm d => d
  | .flash _ => 1000

/-- The duty a winner asks: 0 for none and for OFF, d for DIM d, 1000 for ON, PULSE and FLASH (R52, R60). -/
def askedDuty : Option Winner → Nat
  | none => 0
  | some ⟨_, _, .pulse⟩ => 1000
  | some ⟨_, _, .ask .off⟩ => 0
  | some ⟨_, _, .ask .on⟩ => 1000
  | some ⟨_, _, .ask (.dim d)⟩ => d
  | some ⟨_, _, .ask (.flash _)⟩ => 1000

/-! ### Outputs (R119 to R137, R69) -/

/-- A staged output as a granted one (R132). -/
def Staged.granted : Staged → Granted
  | .steady => .steady
  | .pwm d => .pwm d

/-- An output state that a granted output leads to (R121 to R123, R132, R135). -/
def OutState.Fits (o : OutState) (g : Granted) : Prop :=
  match o with
  | .off => g = .off
  | .waiting => g = .steady ∨ ∃ d, g = .pwm d
  | .inrush _ => g ≠ .off
  | .steady staged _ => g = staged.granted
  | .pwm _ _ staged _ => g = staged.granted
  | .flash p => g = .flash p

/-- The sample kind of channel c is the one its output state, mode and phase call for (R69, R72). -/
def State.SenseFits (s : State) (c : Channel) : Prop :=
  match (s.chan c).sw.out with
  | .off => (s.chan c).sense.kind = .voltage
  | .waiting => (s.chan c).sense.kind = .voltage
  | .inrush _ => (s.chan c).sense.kind = .current
  | .steady _ _ => (s.chan c).sense.kind = .current
  | .flash p => (s.chan c).sense.kind = if s.patternOn p then .current else .voltage
  | .pwm _ onTime _ start =>
    ∃ pending, (s.chan c).sense.kind = .periodic start (effectiveOn (s.profile c).period onTime) pending

/-- The switch controller and the scanner agree with one another and with what was handed over: output
states fit granted outputs; the queue holds exactly the waiting channels, each once and in the group of its
class (R124); user counts equal the users, and a pattern without users is STOPPED (R136); an allowance is held
by a conducting channel only (R123, R130); sample kinds follow conduction (R69). -/
def State.OutputsOk (s : State) : Prop :=
  (∀ c : Channel, (s.chan c).sw.out.Fits (s.chan c).sw.granted)
    ∧ (s.queue.front ++ s.queue.back).Nodup
    ∧ (∀ c : Channel, c ∈ s.queue.front ↔ (s.chan c).sw.out = .waiting ∧ inFrontGroup (s.chan c).sw.cls = true)
    ∧ (∀ c : Channel, c ∈ s.queue.back ↔ (s.chan c).sw.out = .waiting ∧ inFrontGroup (s.chan c).sw.cls = false)
    ∧ (∀ p : Pattern, s.gens[p].users = (s.usersOf p).length ∧ (s.gens[p].state = .stopped ↔ s.gens[p].users = 0))
    ∧ (∀ c : Channel, (s.chan c).sw.allowance ≠ none → (s.chan c).sw.out.isOn = true)
    ∧ (∀ c : Channel, s.SenseFits c)

/-! ### Protection (R85, R106, R107, R112 to R114) -/

/-- The protection record of channel c: H within its bound (R85), the retry counter within the limit (R106),
the stable run only while the output is on (R107), the off-time wait cleared exactly while the output is not
OFF (R113), the counts held (R112, R114). -/
def State.ProtOk (s : State) (c : Channel) : Prop :=
  (s.chan c).prot.heat ≤ heatMax
    ∧ (s.chan c).prot.retries ≤ (s.profile c).retryLimit
    ∧ ((s.chan c).prot.stableRun ≠ none → (s.chan c).sw.out.isOn = true)
    ∧ ((s.chan c).prot.offWait = .cleared ↔ (s.chan c).sw.out ≠ .off)
    ∧ (s.chan c).prot.onCount ≤ 50
    ∧ (s.chan c).prot.offCount ≤ 10

/-- Every protection record is in order. -/
def State.ProtectionOk (s : State) : Prop := ∀ c : Channel, s.ProtOk c

/-! ### Supply (R142, R154) -/

/-- The supervisor: L is the greatest of its components, and every level lies between 0 and 3 (R142, R154). -/
def Supervisor.Ok (v : Supervisor) : Prop :=
  v.level = v.effective ∧ v.voltageLevel ≤ 3 ∧ v.thermalLevel ≤ 3
    ∧ (∀ src f, v.floors.get src = some f → 1 ≤ f.level ∧ f.level ≤ 3) ∧ v.heat ≤ heatMax

/-! ### Ports (R181, R200, R203) -/

/-- The REPLY frames to a source queued or in transmission on a port. -/
def PortRecord.repliesTo (p : PortRecord) (src : NetSource) : Nat :=
  p.replies.countP (fun r => decide (r.requester = src)) + if p.sendsTo src then 1 else 0

/-- The ports: at most one REPLY to each source of a port and none to another's (R203), nothing queued or sent
while OFFLINE (R181), and a reply to SERVICE held only behind another that is queued or in transmission (R200). -/
def State.PortsOk (s : State) : Prop :=
  (∀ port src, (s.port port).repliesTo src ≤ if NetSource.port src = port then 1 else 0)
    ∧ (∀ port, (s.port port).online = false →
      (s.port port).replies = [] ∧ (s.port port).status = none ∧ (s.port port).sending = none)
    ∧ (∀ r, s.heldStore = some r ∨ s.heldCommand = some r →
      r.requester = .service ∧ s.portA.hasReply .service = true)

/-! ### All of them -/

/-- The part as the rules have it between two events. -/
def State.Ok (s : State) : Prop :=
  s.faults.Ok ∧ s.ConfigOk ∧ s.DemandsOk ∧ s.AllSettled ∧ s.OutputsOk ∧ s.ProtectionOk ∧ s.sup.Ok ∧ s.PortsOk

/-! ### What an evaluation leaves unchanged (R48, R61, R140) -/

/-- What the evaluation of any channel leaves of the records of a channel: the demand list and the claim; the
readings; H, the protection state, the retry counter, the flags and the fuse tick's moment. -/
def ChannelState.Kept (x y : ChannelState) : Prop :=
  y.demand.list = x.demand.list ∧ y.demand.claimed = x.demand.claimed
    ∧ y.sense.current = x.sense.current ∧ y.sense.voltage = x.sense.voltage
    ∧ y.prot = { x.prot with
        stableRun := y.prot.stableRun, onCount := y.prot.onCount, offWait := y.prot.offWait, offCount := y.prot.offCount }

/-- Channel c stands in the switch-on queue. -/
def SwitchQueue.Holds (q : SwitchQueue) (c : Channel) : Prop := c ∈ q.front ∨ c ∈ q.back

/-- What the evaluation of other channels leaves of channel c: everything, but that a channel of the queue may be
admitted to INRUSH (R123, R125, R126). -/
def State.SameOrAdmitted (s t : State) (c : Channel) : Prop :=
  t.chan c = s.chan c
    ∨ (s.queue.Holds c ∧ (∃ ends, (t.chan c).sw.out = .inrush ends) ∧ (s.chan c).Kept (t.chan c)
      ∧ (t.chan c).demand = (s.chan c).demand ∧ (t.chan c).arb = (s.chan c).arb
      ∧ (t.chan c).sw.granted = (s.chan c).sw.granted ∧ (t.chan c).sw.cls = (s.chan c).sw.cls)

/-- Only the channels' records, the switch-on queue and the pattern generators differ. -/
def State.SameButChannels (s t : State) : Prop := t = { s with chans := t.chans, queue := t.queue, gens := t.gens }

/-- t is what evaluations of the channels of a list make of s: those channels settled, the rest at most
admitted from the queue, and nothing but channels, queue and generators touched (R48, R49). -/
def State.Evaluated (s t : State) (l : List Channel) : Prop :=
  s.SameButChannels t
    ∧ (∀ c : Channel, (s.chan c).Kept (t.chan c))
    ∧ (∀ c : Channel, c ∉ l → s.SameOrAdmitted t c)
    ∧ (∀ c ∈ l, t.Settled c)

/-- t is the evaluations of the channels of a list, taken in the order of the list, made of u (R44, R49), with what those
leave unchanged. -/
def State.EvaluatesTo (u t : State) (l : List Channel) : Prop := t = l.foldl State.evaluate u ∧ u.Evaluated t l

/-- t is what a recompute of the LINE entries of some channels makes of u: their lists hold the LINE entry the lines call
for, lists that changed are settled, and a channel whose list did not change is at most admitted (R41, R44). -/
def State.LinesRecomputed (u t : State) (concerned : Channel → Bool) : Prop :=
  u.SameButChannels t
    ∧ ∀ c : Channel,
      (concerned c = true → (t.chan c).demand.list = { (u.chan c).demand.list with line := t.lineEntry c })
      ∧ (concerned c = false → (t.chan c).demand.list = (u.chan c).demand.list)
      ∧ ((u.chan c).demand.list.differs (t.chan c).demand.list = true → t.Settled c)
      ∧ ((t.chan c).demand.list = (u.chan c).demand.list → u.SameOrAdmitted t c)
      ∧ ({ u.chan c with demand := (t.chan c).demand } : ChannelState).Kept (t.chan c)

/-- t is what the end of the start-grace wait makes of u: exactly the channels with fallback ON that no network source
has claimed, and that hold neither a network nor a FALLBACK entry, receive FALLBACK ON (R38). -/
def State.GraceEnded (u t : State) : Prop :=
  t = { u with graceStart := none, chans := t.chans, queue := t.queue, gens := t.gens }
    ∧ ∀ c : Channel,
      let l := (u.chan c).demand.list
      let receives := (u.chan c).demand.claimed = false ∧ l.hasNetwork = false ∧ l.fallback = none
        ∧ (u.profile c).fallback = 1
      (receives → (t.chan c).demand.list = { l with fallback := some ⟨.comfort, .ask .on, none⟩ } ∧ t.Settled c)
      ∧ (¬receives → u.SameOrAdmitted t c)
      ∧ ({ u.chan c with demand := (t.chan c).demand } : ChannelState).Kept (t.chan c)

/-! ### Moves of an output (R122 to R137) -/

/-- The channel after a switch-on at a moment: output state, sample kind and allowance as given; the sample mark NONE, no
saturation mark, the stable run started, the off-time wait cleared, both open-load counts 0 (R73, R107, R112, R113). -/
def ChannelState.switchedOn (x : ChannelState) (now : Moment) (out : OutState) (kind : SampleKind)
    (allowance : Option Moment) : ChannelState :=
  { x with
    sw := { x.sw with out := out, allowance := allowance }
    sense := { x.sense with kind := kind, valid := false, saturated := false }
    prot := { x.prot with stableRun := some now, offWait := .cleared, offCount := 0, onCount := 0 } }

/-- The channel after a move within RUNNING or from FLASH to INRUSH, which is no switch-on (R135). -/
def ChannelState.movedOn (x : ChannelState) (out : OutState) (kind : SampleKind) (allowance : Option Moment) :
    ChannelState :=
  { x with sw := { x.sw with out := out, allowance := allowance }, sense := { x.sense with kind := kind } }

/-- The channel after an entry to OFF at a moment: no allowance, VOLTAGE samples, the off-time wait started and the
stable run stopped (R69, R107, R113, R123). -/
def ChannelState.switchedOff (x : ChannelState) (now : Moment) : ChannelState :=
  { x with
    sw := { x.sw with out := .off, allowance := none }
    sense := { x.sense with kind := .voltage }
    prot := { x.prot with stableRun := none, offWait := .since now } }

/-- RUNNING in a mode with its first period from a moment, and the sample kind of that period, by the profile's Tp (R69,
R72, R131, R133). -/
def Staged.running (g : Staged) (period : Nat) (now : Moment) : OutState × SampleKind :=
  match g with
  | .steady => (.steady .steady now, .current)
  | .pwm d =>
    let on := (period * d + 500) / 1000
    let e := if on < 2 then 0 else if period - on < 2 then period else on
    (.pwm d on (.pwm d) now, .periodic now e (decide (5 ≤ e)))

/-- The generator of a pattern after a channel joins it: the first user starts it in ON_PHASE with times latched from the
pattern table (R136, R137). -/
def State.genJoined (s : State) (p : Pattern) : Generator :=
  ⟨s.gens[p].users + 1,
    if s.gens[p].users = 0 then
      .running .on (s.now + 100 * s.cfg.pattern[p].onTime) (100 * s.cfg.pattern[p].onTime)
        (100 * s.cfg.pattern[p].offTime)
    else s.gens[p].state⟩

/-- A generator after a channel leaves its pattern: the last user stops it (R136). -/
def Generator.left (g : Generator) : Generator := ⟨g.users - 1, if g.users ≤ 1 then .stopped else g.state⟩

/-- The queue with a channel at the tail of the group of a winning class: the front group for SAFETY and FORCE (R124). -/
def SwitchQueue.withTail (q : SwitchQueue) (c : Channel) (cls : Option Class) : SwitchQueue :=
  if cls = some .safety ∨ cls = some .force then { q with front := q.front ++ [c] } else { q with back := q.back ++ [c] }

/-- The queue without a channel (R123). -/
def SwitchQueue.without (q : SwitchQueue) (c : Channel) : SwitchQueue :=
  { q with front := q.front.erase c, back := q.back.erase c }

/-- The channel after its admission from WAITING at a moment, under its profile's inrush window (R126). -/
def ChannelState.admittedAt (x : ChannelState) (p : Profile) (now : Moment) : ChannelState :=
  x.switchedOn now (.inrush (now + 100 * p.window)) .current (some (now + 100 * p.window))

/-- t is what a test of the admission condition makes of u: nothing where no channel waits or the interval has not
passed; with an interval above 0 the admission of the head; with an interval of 0 the admission of every waiting
channel (R125, R126). -/
def State.AdmissionTested (u t : State) : Prop :=
  let queued := u.queue.front ++ u.queue.back
  let interval := 10 * u.cfg.zone.admissionInterval
  let due := ∀ last, u.queue.lastAdmission = some last → last + interval ≤ u.now
  ((queued = [] ∨ ¬due) → t = u)
  ∧ (∀ c rest, queued = c :: rest → due → 0 < interval → (u.chan c).sw.out = .waiting →
      t = ({ u with queue := { u.queue.without c with lastAdmission := some u.now } } : State).setChan c
        ((u.chan c).admittedAt (u.profile c) u.now))
  ∧ (queued ≠ [] → due → interval = 0 →
      t = { u with chans := t.chans, queue := ⟨[], [], some u.now⟩ }
      ∧ ∀ c : Channel,
        (c ∈ queued → (u.chan c).sw.out = .waiting → t.chan c = (u.chan c).admittedAt (u.profile c) u.now)
        ∧ (c ∉ queued → t.chan c = u.chan c))

/-! ### Frames and replies (R183, R184, R186) -/

/-- The header of a COMMAND frame; none for a DEMAND frame and for what is no frame. -/
def commandHeader : Instr → Option RxHeader
  | .release rx _ => some rx
  | .clearChannel rx _ => some rx
  | .clearEmergency rx _ => some rx
  | .clearFaults rx _ => some rx
  | .shedFloor rx _ => some rx
  | .flashSync rx _ => some rx
  | .queryChannel rx _ => some rx
  | .queryProtection rx _ => some rx
  | .queryEntry rx _ => some rx
  | .queryZone rx _ => some rx
  | .readFault rx _ => some rx
  | .readLimitLog rx _ => some rx
  | .configRead rx _ => some rx
  | .configWrite rx _ => some rx
  | .configStore rx _ => some rx
  | .unknownCommand rx _ _ => some rx
  | .demand _ _ => none
  | .powerOn _ => none
  | .supplyDip _ => none
  | .external _ => none
  | .pulseTimerExpiry _ _ => none
  | .lapse _ _ => none
  | .startGraceEnd => none
  | .admission => none
  | .inrushTimerExpiry _ => none
  | .allowanceTimerExpiry _ => none
  | .periodBoundary _ => none
  | .phaseTimerExpiry _ => none
  | .scan _ _ => none
  | .pwmMidpoint _ _ => none
  | .offTimeWaitComplete _ => none
  | .fuseTick _ => none
  | .retryDelayExpiry _ => none
  | .stableRunExpiry _ => none
  | .feederFuseTick => none
  | .floorExpiry _ => none
  | .lineLevelChange _ _ => none
  | .debounceExpiry _ _ => none
  | .storeCompletion _ => none
  | .statusDue _ => none
  | .takeIntoTransmission _ => none
  | .frameSent _ => none
  | .busOff _ => none
  | .linkReturn _ => none
  | .uptimeTick => none

/-- A COMMAND frame that its port accepts from a source and does not discard (R183, R186). -/
def State.Takes (s : State) (rx : RxHeader) (src : NetSource) : Prop :=
  s.commandSender rx = some src ∧ s.discards src = false

/-- The REPLY frame to a command: byte 0 holds the command code and the requester, byte 1 the result, and the
reply data follow (R184). -/
def replyFrame (code : Nat) (src : NetSource) (result : Nat) (data : List Nat) : Reply :=
  ⟨src, packBytes ([code + 32 * NetSource.code src, result] ++ data)⟩

/-- The state with the REPLY to a command placed by its port (R186, R200). -/
def State.replied (s : State) (code : Nat) (src : NetSource) (result : Nat) (data : List Nat) : State :=
  s.placeReply (replyFrame code src result data)

/-! ### Resets (R17, R19) -/

/-- The stored image after a reset: a reset that abandons a store makes it fail its check (R17, R19). -/
def State.imageKept (s : State) : StoredImage :=
  if s.store = .idle then s.image else { s.image with spoiled := true }

/-! ### What a code of a DEMAND frame makes of a list (R27 to R30, R37) -/

/-- The list a code that R26 lets pass leaves, at a moment, with the deadline a write or renewal sets; the class is FORCE
from SERVICE, and otherwise the one of the class field, which only DRIVE may raise to SAFETY (R25). -/
def DemandList.afterCode (l : DemandList) (src : NetSource) (d : DemandItem) (now deadline : Moment) : DemandList :=
  let cls : Class :=
    if src = .service then .force
    else if d.classField = 3 ∧ src = .drive then .safety
    else if d.classField = 2 ∨ d.classField = 3 then .duty
    else .comfort
  let written (cmd : EntryCommand) : DemandList :=
    { l with net := l.net.set src (some ⟨cls, cmd, some deadline⟩), fallback := none }
  let renewed : DemandList :=
    { l with net := l.net.set src ((l.net.get src).map fun e => { e with deadline := some deadline }) }
  match d.code with
  | .skip => l
  | .release => { l with net := l.net.set src none }
  | .off => written (.ask .off)
  | .on => written (.ask .on)
  | .dim => written (.ask (.dim (if d.argument ≤ 250 then 4 * d.argument else 1000)))
  | .flash => written (.ask (.flash ⟨d.argument % 4, Nat.mod_lt _ (by decide)⟩))
  | .renew => renewed
  | .pulse =>
    match l.net.get src with
    | some ⟨_, .pulse _ _, _⟩ => renewed
    | _ =>
      let ms := if d.argument = 0 then 10 else 10 * d.argument
      written (.pulse ms (.running (now + 10 * ms)))

end Sys2Proof.Machine
end

