-- ==== Sys2Proof/Certificates/Slice0/Obligations.lean ====
section
/-! DEFINITION. The statements for the provers. OBLIGATIONS.json gives each its number, its tier and the rules it
rests on; the words of its statement stand there. -/

open Sys2Proof Sys2Proof.Machine

/-! ### The step and the state after reset -/

/-- A step runs the command at the front of the queue with the queue's rest; on an empty queue 0.1 ms passes and
nothing else happens, which is the model's choice (log 1). -/
def Obligations.StepRunsFrontCommand : Prop :=
  ∀ s : Machine.State,
    (∀ (c : Instr) (rest : List Instr), step { s with pending := c :: rest } = exec c { s with pending := rest })
    ∧ step { s with pending := [] } = .next { s with pending := [], now := s.now + 1 }

/-- Every command has an effect: none stops the part, and none touches the queue of commands. -/
def Obligations.CommandsNeverStop : Prop :=
  ∀ (c : Instr) (s : Machine.State), ∃ t, exec c s = .next t ∧ t.pending = s.pending

/-- The state after reset is in order, and every block holds its POWER_ON values. The pins, the delivered image and
the clock are the model's choice (log 1, log 9, log 10). -/
def Obligations.ResetStateInOrder : Prop :=
  Machine.State.reset.Ok
    ∧ (∀ c : Channel,
        (Machine.State.reset.chan c).demand.list.entries = []
          ∧ (Machine.State.reset.chan c).demand.lastNetworkWinner = none
          ∧ (Machine.State.reset.chan c).arb = ⟨none, .off, CauseSet.empty, CauseSet.empty⟩
          ∧ (Machine.State.reset.chan c).sense = ⟨0, false, false, 0, .voltage⟩
          ∧ (Machine.State.reset.chan c).prot.heat = 0
          ∧ (Machine.State.reset.chan c).prot.state = .ready
          ∧ (Machine.State.reset.chan c).prot.retries = 0
          ∧ (Machine.State.reset.chan c).sw = ⟨.off, .off, none, none⟩)
    ∧ Machine.State.reset.cfg = WorkingConfig.default
    ∧ Machine.State.reset.store = .idle
    ∧ Machine.State.reset.resetCause = .powerOn
    ∧ Machine.State.reset.queue = ⟨[], [], none⟩
    ∧ (∀ p : Pattern, Machine.State.reset.gens[p] = ⟨0, .stopped⟩)
    ∧ Machine.State.reset.sup.heat = 0 ∧ Machine.State.reset.sup.level = 0 ∧ Machine.State.reset.sup.hold = false
    ∧ Machine.State.reset.latch = false
    ∧ Machine.State.reset.faults.uptime = 0 ∧ Machine.State.reset.faults.overflow = false
    ∧ Machine.State.reset.portA.online = true ∧ Machine.State.reset.portB.online = true
    ∧ Machine.State.reset.heldStore = none ∧ Machine.State.reset.heldCommand = none

/-! ### What every step keeps -/

/-- The fault list holds at most 16 records, no two with one key, counts and times in range, events PASSIVE, and it is what
the latest reports to fall together make of the list they found. What falls together is the model's choice (log 29). -/
def Obligations.FaultListStaysInOrder : Prop :=
  ∀ s t : Machine.State, s.faults.Ok → step s = .next t → t.faults.Ok

/-- The working configuration satisfies every range and every relation. -/
def Obligations.ConfigurationStaysInRange : Prop :=
  ∀ s t : Machine.State, s.ConfigOk → step s = .next t → t.ConfigOk

/-- Demand lists: classes within their ceilings, no FALLBACK entry beside a network entry, SERVICE entries only while
SVC is ACTIVE, every LINE entry the one the lines call for. -/
def Obligations.DemandListsStayInOrder : Prop :=
  ∀ s t : Machine.State, s.DemandsOk → step s = .next t → t.DemandsOk

/-- Every channel's arbitration record and handed-over pair are what the limiter chain makes of the inputs as they
stand: no change of an input is left without its evaluation. -/
def Obligations.ChannelsStaySettled : Prop :=
  ∀ s t : Machine.State, s.AllSettled → step s = .next t → t.AllSettled

/-- Outputs, queue, patterns, allowances and sample kinds stay in agreement. -/
def Obligations.OutputsStayInOrder : Prop :=
  ∀ s t : Machine.State, s.OutputsOk → step s = .next t → t.OutputsOk

/-- Protection records stay in order. -/
def Obligations.ProtectionStaysInOrder : Prop :=
  ∀ s t : Machine.State, s.ProtectionOk → step s = .next t → t.ProtectionOk

/-- The effective shed level stays the greatest of its components, and every level within 0 to 3. -/
def Obligations.SupplyStaysInOrder : Prop :=
  ∀ s t : Machine.State, s.sup.Ok → step s = .next t → t.sup.Ok

/-- Each source has at most one REPLY queued or in transmission, an OFFLINE port holds nothing, and a reply to SERVICE
is held only behind another. -/
def Obligations.PortsStayInOrder : Prop :=
  ∀ s t : Machine.State, s.PortsOk → step s = .next t → t.PortsOk

/-! ### What follows for the outputs and the queues -/

/-- The gate output and the diagnostic pull-up of every channel follow its output state; and a channel that protection, the
latch, the hold or the shed level holds back has output state OFF. -/
def Obligations.HeldChannelsAreOff : Prop :=
  (∀ (s : Machine.State) (c : Channel),
    let p := s.profile c
    let out := (s.chan c).sw.out
    (out = .off ∨ out = .waiting → s.gateOn c = false)
    ∧ (∀ ends, out = .inrush ends → s.gateOn c = true)
    ∧ (∀ staged start, out = .steady staged start → s.gateOn c = true)
    ∧ (∀ duty onTime staged start, out = .pwm duty onTime staged start →
        let elapsed := s.now - start
        (onTime < 2 → s.gateOn c = false)
        ∧ (2 ≤ onTime → p.period - onTime < 2 → s.gateOn c = true)
        ∧ (2 ≤ onTime → 2 ≤ p.period - onTime → (s.gateOn c = true ↔ elapsed < onTime)))
    ∧ (∀ f : Pattern, out = .flash f →
        (s.gateOn c = true ↔ ∃ due onTime offTime, s.gens[f].state = .running .on due onTime offTime))
    ∧ (s.pullUpApplied c = true ↔ out = .off ∧ p.pullUp = 1))
  ∧ ∀ (s : Machine.State) (c : Channel), s.AllSettled → s.OutputsOk →
    ((s.chan c).prot.state = .trippedOverload → (s.chan c).sw.out = .off)
    ∧ (∀ d, (s.chan c).prot.state = .trippedShort d → (s.chan c).sw.out = .off)
    ∧ (∀ k, (s.chan c).prot.state = .lockout k → (s.chan c).sw.out = .off)
    ∧ (s.latch = true → (s.profile c).emergencyKeep ≠ 1 → (s.chan c).sw.out = .off)
    ∧ (∀ w, (s.chan c).arb.winner = some w → (w.cls = .comfort ∨ w.cls = .duty) →
        (s.sup.hold = true ∨ 4 ≤ (s.profile c).shedClass + s.sup.level) → (s.chan c).sw.out = .off)

/-! ### Arbitration -/

/-- The winner: the candidate of the highest class, then of the greatest strength, then of the lowest source. -/
def Obligations.WinnerIsStrongest : Prop :=
  (EntryCommand.strength? (.ask .off) = some 0
    ∧ (∀ d, EntryCommand.strength? (.ask (.dim d)) = some d)
    ∧ (∀ p, EntryCommand.strength? (.ask (.flash p)) = some 1001)
    ∧ EntryCommand.strength? (.ask .on) = some 1002
    ∧ (∀ n t, EntryCommand.strength? (.pulse n (.running t)) = some 1002)
    ∧ (∀ n, EntryCommand.strength? (.pulse n .spent) = none))
  ∧ ∀ l : DemandList,
    (l.winner = none ↔ ∀ src e, l.get src = some e → e.command.strength? = none)
    ∧ ∀ w, l.winner = some w →
      ∃ e n, l.get w.source = some e ∧ e.command.strength? = some n ∧ w.cls = e.cls ∧ w.command = e.command.won
        ∧ ∀ src' e' n', l.get src' = some e' → e'.command.strength? = some n' →
          Class.code e'.cls < Class.code e.cls
            ∨ (Class.code e'.cls = Class.code e.cls
              ∧ (n' < n ∨ (n' = n ∧ Source.code w.source ≤ Source.code src')))

/-- The steps of the limiter chain that turn an output OFF, in their order: the first that applies records its cause;
where none applies the output passes on to the derate and the conversion as it came, and no other cause than DERATE is
recorded. -/
def Obligations.LimiterStepsTurnOff : Prop :=
  ∀ (i : LimitInputs) (o : Output), i.level ≤ 3 →
    let tripped := i.prot = .trippedOverload ∨ ∃ d, i.prot = .trippedShort d
    let locked := ∃ k, i.prot = .lockout k
    let emergency := i.latch = true ∧ i.profile.emergencyKeep ≠ 1
    let low := i.cls = some .comfort ∨ i.cls = some .duty
    let shed := 4 - i.level ≤ i.profile.shedClass ∧ low
    (o = .off → limitChain i o = ⟨.off, CauseSet.empty⟩)
    ∧ (o ≠ .off → tripped → limitChain i o = ⟨.off, CauseSet.empty.add .protect⟩)
    ∧ (o ≠ .off → locked → limitChain i o = ⟨.off, CauseSet.empty.add .lockout⟩)
    ∧ (o ≠ .off → ¬tripped → ¬locked → emergency → limitChain i o = ⟨.off, CauseSet.empty.add .emergency⟩)
    ∧ (o ≠ .off → ¬tripped → ¬locked → ¬emergency → i.hold = true ∧ low →
        limitChain i o = ⟨.off, CauseSet.empty.add .overvoltage⟩)
    ∧ (o ≠ .off → ¬tripped → ¬locked → ¬emergency → ¬(i.hold = true ∧ low) → shed →
        limitChain i o = ⟨.off, CauseSet.empty.add .shed⟩)
    ∧ (o ≠ .off → ¬tripped → ¬locked → ¬emergency → ¬(i.hold = true ∧ low) → ¬shed →
        limitChain i o = limitConvert i (limitDerate i ⟨o, CauseSet.empty⟩)
        ∧ ((limitChain i o).causes = CauseSet.empty ∨ (limitChain i o).causes = CauseSet.empty.add .derate))

/-- Step 5 lowers an output to the derate cap on a WARM channel with PWM, and step 6 converts a DIM output on a
channel without PWM. -/
def Obligations.DerateAndConversion : Prop :=
  ∀ (i : LimitInputs) (causes : CauseSet),
    (∀ o, i.prot ≠ .warm ∨ i.profile.pwmAllowed ≠ 1 → limitDerate i ⟨o, causes⟩ = ⟨o, causes⟩)
    ∧ (i.prot = .warm → i.profile.pwmAllowed = 1 →
        limitDerate i ⟨.steady, causes⟩ =
          (if 4 * i.profile.derate < 1000 then ⟨.dim (4 * i.profile.derate), causes.add .derate⟩ else ⟨.steady, causes⟩)
        ∧ (∀ d, limitDerate i ⟨.dim d, causes⟩ =
            if 4 * i.profile.derate < d then ⟨.dim (4 * i.profile.derate), causes.add .derate⟩ else ⟨.dim d, causes⟩)
        ∧ (∀ p, limitDerate i ⟨.flash p, causes⟩ = ⟨.flash p, causes⟩))
    ∧ (∀ o, i.profile.pwmAllowed = 1 → limitConvert i ⟨o, causes⟩ = ⟨o, causes⟩)
    ∧ (i.profile.pwmAllowed ≠ 1 →
        limitConvert i ⟨.dim 1000, causes⟩ = ⟨.steady, causes⟩
        ∧ (∀ d, d < 1000 → limitConvert i ⟨.dim d, causes⟩ = ⟨.off, causes⟩)
        ∧ limitConvert i ⟨.steady, causes⟩ = ⟨.steady, causes⟩
        ∧ (∀ p, limitConvert i ⟨.flash p, causes⟩ = ⟨.flash p, causes⟩))

/-- The forms in which an output is granted, and no grant above what the winner asks. -/
def Obligations.GrantNeverExceedsAsked : Prop :=
  Output.grant .off = .off ∧ Output.grant .steady = .steady ∧ Output.grant (.dim 0) = .off
    ∧ Output.grant (.dim 1000) = .steady ∧ (∀ d, 1 ≤ d → d ≤ 999 → Output.grant (.dim d) = .pwm d)
    ∧ (∀ p, Output.grant (.flash p) = .flash p)
    ∧ ∀ (i : LimitInputs) (w : Option Winner), (limitChain i (provisional w)).out.grant.duty ≤ askedDuty w

/-- An evaluation of one channel: the winner of its list, the granted output and the causes of the limiter chain are
recorded, and the pair is handed over where it differs from the one last handed. An evaluation of all channels takes them
in ascending number and leaves each with the winner of its list, and with a last network winner that is the command of a
network winner, OFF for a pulse, and unchanged for any other winner. -/
def Obligations.EvaluationOfAllChannels : Prop :=
  (∀ (s : Machine.State) (c : Channel),
    let x := s.chan c
    let w := x.demand.list.winner
    let cls := w.map Winner.cls
    let l := limitChain ⟨x.prot.state, s.latch, s.sup.hold, s.sup.level, cls, s.profile c⟩ (provisional w)
    let last := match w with
      | some ⟨.net _, _, .ask a⟩ => some a
      | some ⟨.net _, _, .pulse⟩ => some .off
      | _ => x.demand.lastNetworkWinner
    let r := s.setChan c { x with
      demand := { x.demand with lastNetworkWinner := last }
      arb := ⟨w, l.out.grant, l.causes, x.arb.log.union l.causes⟩ }
    (x.sw.granted = l.out.grant ∧ x.sw.cls = cls → s.evaluate c = r)
    ∧ (¬(x.sw.granted = l.out.grant ∧ x.sw.cls = cls) → s.evaluate c = r.handOver c l.out.grant cls))
  ∧ ∀ (s : Machine.State) (c : Channel),
    let w := (s.chan c).demand.list.winner
    let t := s.evaluateAll
    t = (List.finRange 16).foldl State.evaluate s
    ∧ (t.chan c).arb.winner = w
    ∧ (∀ src cls a, w = some ⟨.net src, cls, .ask a⟩ → (t.chan c).demand.lastNetworkWinner = some a)
    ∧ (∀ src cls, w = some ⟨.net src, cls, .pulse⟩ → (t.chan c).demand.lastNetworkWinner = some .off)
    ∧ ((∀ src cls x, w ≠ some ⟨.net src, cls, x⟩) →
        (t.chan c).demand.lastNetworkWinner = (s.chan c).demand.lastNetworkWinner)
    ∧ (∀ k, (t.chan c).arb.status.has k = true → (t.chan c).arb.log.has k = true)
    ∧ (∀ k, (s.chan c).arb.log.has k = true → (t.chan c).arb.log.has k = true)

/-! ### The heat model -/

/-- The estimate under a power term held constant: in its band it stays, outside it moves towards it without crossing
it, and it reaches it; a band above the greatest value holds it there; a level above the start is reached exactly when
the power term is at least the level's factor. -/
def Obligations.HeatFollowsPower : Prop :=
  (∀ k p h : Nat, p * 2 ^ k + 2 ^ k - 1 ≤ heatMax →
    (p * 2 ^ k ≤ h → h ≤ p * 2 ^ k + 2 ^ k - 1 → heatStep k p h = h)
    ∧ (h < p * 2 ^ k → h < heatStep k p h ∧ heatStep k p h ≤ p * 2 ^ k + 2 ^ k - 1)
    ∧ (p * 2 ^ k + 2 ^ k - 1 < h → p * 2 ^ k ≤ heatStep k p h ∧ heatStep k p h < h)
    ∧ ∃ n, ∀ m, n ≤ m → p * 2 ^ k ≤ (heatStep k p)^[m] h ∧ (heatStep k p)^[m] h ≤ p * 2 ^ k + 2 ^ k - 1)
  ∧ (∀ k p h : Nat, k ≤ 32 → h ≤ heatMax → heatMax < p * 2 ^ k + 2 ^ k - 1 →
    (h < heatMax → h < heatStep k p h) ∧ ∃ n, ∀ m, n ≤ m → (heatStep k p)^[m] h = heatMax)
  ∧ ∀ k p x h : Nat, h < x * 2 ^ k → x * 2 ^ k ≤ heatMax →
    (x ≤ p → ∃ n, x * 2 ^ k ≤ (heatStep k p)^[n] h) ∧ (p < x → ∀ n, (heatStep k p)^[n] h < x * 2 ^ k)

/-! ### Resets -/

/-- Every reset leaves the store IDLE, sets the reset-cause record to its kind, spoils an abandoned image, and loads the
image or the defaults. The kind is decided when the reset ends: POWER_ON after power was applied, otherwise SUPPLY_DIP
after a fall of the logic supply, otherwise EXTERNAL, whatever the reset pin did. The mark on the image is the model's
choice (log 18), and that the reset of that kind is the next command taken (log 11). -/
def Obligations.ResetLoadsConfiguration : Prop :=
  (∀ (k : ResetCause) (pins : ResetPins) (s : Machine.State), ∃ t, exec (resetCommand k pins) s = .next t
    ∧ t.store = .idle ∧ t.resetCause = k
    ∧ t.image = s.imageKept
    ∧ t.cfg = (if t.image.accepted then t.image.values else WorkingConfig.default)
    ∧ (s.store ≠ .idle → t.cfg = WorkingConfig.default))
  ∧ ∀ (x : ResetCourse) (pins : ResetPins) (s : Machine.State), ∃ k t,
      step (s.endReset x pins) = .next t ∧ exec (resetCommand k pins) s = .next t ∧ t.resetCause = k
      ∧ (x.powerApplied = true → k = .powerOn)
      ∧ (x.powerApplied = false → x.supplyFell = true → k = .supplyDip)
      ∧ (x.powerApplied = false → x.supplyFell = false → k = .external)

/-- The fault list across a reset: emptied by POWER_ON and SUPPLY_DIP, kept by EXTERNAL with its ACTIVE records
turned PASSIVE but for LOCKOUT and EMERGENCY that still hold; the report of a rejected image after that. That a
reset takes no time is the model's choice (log 11). -/
def Obligations.ResetKeepsFaults : Prop :=
  ∀ (pins : ResetPins) (s : Machine.State),
    (∀ k, k ≠ .external → ∃ t, exec (resetCommand k pins) s = .next t
      ∧ t.faults =
        let none : FaultRecords := ⟨[], false⟩
        if s.imageKept.accepted then ⟨[], false, 0, s.now, ⟨s.now, none, []⟩⟩
        else ⟨[⟨.configDefaulted, 0, 0, 1, false⟩], false, 0, s.now, ⟨s.now, none, [⟨0, [.occur .configDefaulted]⟩]⟩⟩)
    ∧ ∃ t, exec (.external pins) s = .next t ∧
      let records := s.faults.records.map fun r =>
        { r with active := r.active &&
          match r.key with
          | .lockout c => (s.chan c).prot.state.locked
          | .emergency => s.latch
          | _ => false }
      let kept : FaultList :=
        { s.faults with
          records := records, secondStart := s.now, together := ⟨s.now, ⟨records, s.faults.overflow⟩, []⟩ }
      t.faults = if s.imageKept.accepted then kept else kept.occur s.now .configDefaulted

/-- Protection records and heat estimates across the three resets. That a reset takes no time is the model's choice
(log 11). -/
def Obligations.ResetProtection : Prop :=
  ∀ (k : ResetCause) (pins : ResetPins) (s : Machine.State), ∃ t, exec (resetCommand k pins) s = .next t
    ∧ (∀ c : Channel,
        (t.chan c).prot.openLoadOn = false ∧ (t.chan c).prot.openLoadOff = false
        ∧ (t.chan c).prot.shortToSupply = false ∧ (t.chan c).prot.lastTick = s.now)
    ∧ (k = .powerOn → t.sup.heat = 0 ∧ ∀ c : Channel,
        (t.chan c).prot.heat = 0 ∧ (t.chan c).prot.state = .ready ∧ (t.chan c).prot.retries = 0)
    ∧ (k = .supplyDip → t.sup.heat = t.cfg.zone.feederWarm * 2 ^ t.cfg.zone.feederShift ∧ ∀ c : Channel,
        (t.chan c).prot.heat = (t.profile c).warm * 2 ^ (t.profile c).decayShift
        ∧ (t.chan c).prot.state = .ready ∧ (t.chan c).prot.retries = 0)
    ∧ (k = .external → t.sup.heat = s.sup.heat ∧ ∀ c : Channel,
        (t.chan c).prot.heat = (s.chan c).prot.heat
        ∧ (t.chan c).prot.retries = min (s.chan c).prot.retries (t.profile c).retryLimit
        ∧ ((∀ d, (s.chan c).prot.state ≠ .trippedShort d) → (t.chan c).prot.state = (s.chan c).prot.state)
        ∧ (∀ d, (s.chan c).prot.state = .trippedShort d →
            (t.chan c).prot.state = .trippedShort (.running (s.now + 1000 * (t.profile c).retryDelay))))

/-- The values the other blocks take at every reset: lapsed flags, sense zone record, supervisor, lines, latch,
ports, zone address; and, where the loaded start grace is above 0, every channel, the queue, the generators and the
wait. That a reset takes no time, that a start grace of 0 ends inside it, and that the periods of ticks and due moments
run from it are the model's reading (log 11, log 16, log 20). -/
def Obligations.ResetBlockValues : Prop :=
  ∀ (k : ResetCause) (pins : ResetPins) (s : Machine.State), ∃ t, exec (resetCommand k pins) s = .next t
    ∧ t.lapsed = ⟨false, false, false, false⟩
    ∧ t.scan = ⟨0, 0, s.now⟩
    ∧ t.sup =
      { heat := t.sup.heat, lastTick := s.now, voltageLevel := 0
        low := ⟨none, none, none⟩, recovery := ⟨none, none, none⟩, hold := false, high := none, release := none
        latest := none, thermalLevel := 0, dwellStart := s.now, floors := ⟨none, none, none, none⟩, level := 0 }
    ∧ (∀ i : Fin 4, t.lines.conf[i] = ⟨pins.conf[i], false,
        if pins.conf[i] = decide (t.cfg.line[i].polarity = 0) then some s.now else none⟩)
    ∧ t.lines.emg = ⟨pins.emg, false, if pins.emg then none else some s.now⟩
    ∧ t.lines.svc = ⟨pins.svc, false, if pins.svc then some s.now else none⟩
    ∧ t.latch = (if k = .external then s.latch else false)
    ∧ t.portA = ⟨.online, [], none, none, s.now⟩ ∧ t.portB = ⟨.online, [], none, none, s.now⟩
    ∧ t.heldStore = none ∧ t.heldCommand = none
    ∧ t.zoneAddress = pins.straps.val ∧ t.now = s.now
    ∧ (let fresh := fun c : Channel =>
        t.chan c =
          { demand := ⟨⟨⟨none, none, none, none⟩, none, none⟩, none, false⟩
            arb := ⟨none, .off, CauseSet.empty, CauseSet.empty⟩
            sense := ⟨0, false, false, 0, .voltage⟩
            prot :=
              { heat := (t.chan c).prot.heat, state := (t.chan c).prot.state, retries := (t.chan c).prot.retries
                stableRun := none, onCount := 0, offWait := .since s.now, offCount := 0, openLoadOn := false
                openLoadOff := false, shortToSupply := false, lastTick := s.now }
            sw := ⟨.off, .off, none, none⟩ }
      (t.cfg.zone.startGrace ≠ 0 →
        t.graceStart = some s.now ∧ t.queue = ⟨[], [], none⟩ ∧ (∀ p : Pattern, t.gens[p] = ⟨0, .stopped⟩)
        ∧ ∀ c : Channel, fresh c)
      ∧ (t.cfg.zone.startGrace = 0 →
        t.graceStart = none
        ∧ ∀ c : Channel,
          ((t.profile c).fallback ≠ 1 → fresh c)
          ∧ ((t.profile c).fallback = 1 → t.Settled c
            ∧ (t.chan c).demand.list = ⟨⟨none, none, none, none⟩, none, some ⟨.comfort, .ask .on, none⟩⟩)))

/-! ### Frames -/

/-- When a port accepts a frame, and whose it is; a frame that is not accepted has no effect. The arrival of an accepted
frame runs DEMAND or the command whose code stands in byte 0. A COMMAND is discarded
while a REPLY to its sender is queued or in transmission, and one of SERVICE also while the store reply is held only where
another REPLY is held behind it; a discarded one has no effect. An unknown code is answered with UNKNOWN. A REPLY goes to
the tail of the queue of the requester's port while it is ONLINE, behind a held store reply, or nowhere on an OFFLINE
port; nothing else changes. -/
def Obligations.FramesTakenAndAnswered : Prop :=
  (∀ (s : Machine.State) (rx : RxHeader) (src : NetSource),
    (s.commandSender rx = some src ↔
      (s.port rx.port).link = .online ∧ rx.extended = false ∧ rx.remote = false ∧ rx.length = 8
        ∧ rx.port = (if src = .drive then .b else .a)
        ∧ rx.ident = 0x300 + 0x40 * s.zoneAddress + 0x10 + (NetSource.code src - 1))
    ∧ (s.demandSender rx = some src ↔
      (s.port rx.port).link = .online ∧ rx.extended = false ∧ rx.remote = false ∧ rx.length = 8
        ∧ rx.port = (if src = .drive then .b else .a)
        ∧ ∃ g : Fin 4, rx.ident = 0x300 + 0x40 * s.zoneAddress + 4 * (NetSource.code src - 1) + g.val
          ∧ s.demandGroup rx = g))
  ∧ (∀ (s : Machine.State) (rx : RxHeader) (data : Vector Byte 8),
      (s.demandSender rx ≠ none → step (s.receive rx data) = exec (.demand rx data) s)
      ∧ (s.commandSender rx ≠ none → step (s.receive rx data) = exec (commandOfFrame rx data) s)
      ∧ (s.demandSender rx = none → s.commandSender rx = none → s.receive rx data = s))
  ∧ (∀ (rx : RxHeader) (args : Vector Byte 7),
      let carries := fun (code : Byte) (i : Instr) => ∀ data : Vector Byte 8,
        data[0] = code → (∀ k : Fin 7, data[k.val + 1] = args[k]) → commandOfFrame rx data = i
      carries 1 (.release rx args) ∧ carries 2 (.clearChannel rx args) ∧ carries 3 (.clearEmergency rx args)
      ∧ carries 4 (.clearFaults rx args) ∧ carries 5 (.shedFloor rx args) ∧ carries 6 (.flashSync rx args)
      ∧ carries 7 (.queryChannel rx args) ∧ carries 8 (.queryProtection rx args) ∧ carries 9 (.queryEntry rx args)
      ∧ carries 10 (.queryZone rx args) ∧ carries 11 (.readFault rx args) ∧ carries 12 (.readLimitLog rx args)
      ∧ carries 13 (.configRead rx args) ∧ carries 14 (.configWrite rx args) ∧ carries 15 (.configStore rx args)
      ∧ ∀ code : UnknownCode, carries code (.unknownCommand rx code args))
  ∧ (∀ (s : Machine.State) (rx : RxHeader) (data : Vector Byte 8),
      s.demandSender rx = none → exec (.demand rx data) s = .next s)
  ∧ (∀ (s : Machine.State) (i : Instr) (rx : RxHeader), commandHeader i = some rx →
      s.commandSender rx = none → exec i s = .next s)
  ∧ (∀ (s : Machine.State) (src : NetSource),
      let p := s.port (if src = .drive then .b else .a)
      let unsent := (∃ r ∈ p.replies, r.requester = src) ∨ ∃ r, p.sending = some (.reply r) ∧ r.requester = src
      (src ≠ .service → (s.discards src = true ↔ unsent))
      ∧ (src = .service → (s.discards src = true ↔ s.heldCommand ≠ none ∨ (s.heldStore = none ∧ unsent))))
  ∧ (∀ (s : Machine.State) (i : Instr) (rx : RxHeader) (src : NetSource), commandHeader i = some rx →
      s.commandSender rx = some src → s.discards src = true → exec i s = .next s)
  ∧ (∀ (s : Machine.State) (rx : RxHeader) (args : Vector Byte 7) (src : NetSource), s.Takes rx src →
      ∀ code : UnknownCode, exec (.unknownCommand rx code args) s = .next (s.replied 0 src 5 [code.val.toNat]))
  ∧ ∀ (s : Machine.State) (code : Nat) (src : NetSource) (result : Nat) (data : List Nat),
    let port := if src = .drive then Sys2Proof.Port.b else .a
    let p := s.port port
    (src = .service → s.heldStore ≠ none →
      s.replied code src result data = { s with heldCommand := some (replyFrame code src result data) })
    ∧ ((src ≠ .service ∨ s.heldStore = none) → p.link = .online →
      s.replied code src result data =
        s.setPort port { p with replies := p.replies ++ [replyFrame code src result data] })
    ∧ ((src ≠ .service ∨ s.heldStore = none) → p.link ≠ .online → s.replied code src result data = s)

/-! ### The demand table -/

/-- An accepted DEMAND frame: each code does to its channel what R26 to R30 state, a code that writes an entry while the
start grace runs claims the channel, and then the channels whose list changed are evaluated; one whose list did not, on
SKIP, on a renewal or on a refused code, keeps its arbitration and switch records but for an admission. -/
def Obligations.DemandFrameTakesCodes : Prop :=
  ∀ (s : Machine.State) (rx : RxHeader) (data : Vector Byte 8) (src : NetSource),
    s.demandSender rx = some src → ¬(src = .service ∧ s.lines.svc.active = false) →
    ∃ u t : Machine.State, exec (.demand rx data) s = .next t
      ∧ u = { s with
          chans := u.chans, lapsed := s.lapsed.set src false,
          faults := if s.lapsed.get src then s.faults.finish s.now (.sourceLapsed src) else s.faults }
      ∧ (∀ i : Fin 4,
          let c := groupChannel (s.demandGroup rx) i
          let x := s.chan c
          let d := demandItem data i
          let refused := (d.code ≠ .skip ∧ d.code ≠ .release ∧ (s.profile c).permits src = false)
            ∨ (d.code = .flash ∧ 3 < d.argument)
          let ownPulse := ∃ cls n ph due, x.demand.list.net.get src = some ⟨cls, .pulse n ph, due⟩
          let writes := d.code = .off ∨ d.code = .on ∨ d.code = .dim ∨ d.code = .flash ∨ (d.code = .pulse ∧ ¬ownPulse)
          ((u.chan c).demand.claimed = true ↔ x.demand.claimed = true ∨ (¬refused ∧ writes ∧ s.graceStart ≠ none))
          ∧ (refused → u.chan c = { x with arb := { x.arb with log := x.arb.log.add .refused } })
          ∧ (¬refused → u.chan c = { x with demand := { x.demand with
              list := x.demand.list.afterCode src d s.now (s.now + 100 * s.cfg.lapse.get src)
              claimed := (u.chan c).demand.claimed } }))
      ∧ (∀ c : Channel, (∀ i, c ≠ groupChannel (s.demandGroup rx) i) → u.chan c = s.chan c)
      ∧ u.EvaluatesTo t (allChannels.filter fun c => (s.chan c).demand.list.differs (u.chan c).demand.list)

/-- A DEMAND frame of SERVICE while SVC is INACTIVE writes, renews and removes nothing, and logs REFUSED on each channel
whose code is not SKIP. -/
def Obligations.ServiceDemandRefused : Prop :=
  ∀ (s : Machine.State) (rx : RxHeader) (data : Vector Byte 8),
    s.demandSender rx = some .service → s.lines.svc.active = false →
    ∃ t, exec (.demand rx data) s = .next t
      ∧ t = { s with
          chans := t.chans, lapsed := s.lapsed.set .service false,
          faults := if s.lapsed.service then s.faults.finish s.now (.sourceLapsed .service) else s.faults }
      ∧ (∀ i : Fin 4,
          let c := groupChannel (s.demandGroup rx) i
          t.chan c = if (demandItem data i).code = .skip then s.chan c
            else { s.chan c with arb := { (s.chan c).arb with log := (s.chan c).arb.log.add .refused } })
      ∧ (∀ c : Channel, (∀ i, c ≠ groupChannel (s.demandGroup rx) i) → t.chan c = s.chan c)

/-- PULSE_TIMER_EXPIRY: the pulse becomes SPENT, its deadline runs on, and the channel is evaluated. The moment it
leaves is the model's choice (log 2). -/
def Obligations.PulseBecomesSpent : Prop :=
  ∀ (s : Machine.State) (src : NetSource) (c : Channel) (cls : Sys2Proof.Class) (n : Nat) (ends : Moment)
    (deadline : Option Moment),
    (s.chan c).demand.list.net.get src = some ⟨cls, .pulse n (.running ends), deadline⟩ →
    ∃ t, exec (.pulseTimerExpiry src c) s = .next t
      ∧ t = { s with now := max s.now ends, chans := t.chans, queue := t.queue, gens := t.gens }
      ∧ (t.chan c).demand.list = { (s.chan c).demand.list with
          net := (s.chan c).demand.list.net.set src (some ⟨cls, .pulse n .spent, deadline⟩) }
      ∧ t.Settled c
      ∧ (∀ d : Channel, d ≠ c → s.SameOrAdmitted t d)
      ∧ (∀ d : Channel, ({ s.chan d with demand := (t.chan d).demand } : ChannelState).Kept (t.chan d))

/-- LAPSE: every entry whose deadline falls at that moment leaves its list, with LAPSE logged, SOURCE_LAPSED
reported and the flag set, and the profile's fallback is inserted where no network entry is left. That exactly the entries
with the very same 0.1 ms deadline lapse in one event, and those due in the same millisecond at another 0.1 ms do not, is
the model's choice (log 28), as is the moment it leaves (log 2). -/
def Obligations.LapseRemovesEntries : Prop :=
  ∀ (s : Machine.State) (src : NetSource) (c : Channel) (e : Machine.Entry) (due : Moment),
    (s.chan c).demand.list.net.get src = some e → e.deadline = some due →
    ∃ t, exec (.lapse src c) s = .next t
      ∧ t = { s with
          now := max s.now due, chans := t.chans, queue := t.queue, gens := t.gens, lapsed := t.lapsed,
          faults := s.faults.report (max s.now due) (allChannels.flatMap fun d =>
            (allNetSources.filter fun x => s.fallsDue due x d).map fun x => .occur (.sourceLapsed x)) }
      ∧ (∀ x, t.lapsed.get x = true ↔ s.lapsed.get x = true ∨ ∃ d : Channel, s.fallsDue due x d = true)
      ∧ ∀ d : Channel,
        (∀ x, (t.chan d).demand.list.net.get x =
          if s.fallsDue due x d then none else (s.chan d).demand.list.net.get x)
        ∧ (t.chan d).demand.list.line = (s.chan d).demand.list.line
        ∧ ((∀ x, s.fallsDue due x d = false) → s.SameOrAdmitted t d)
        ∧ ((∃ x, s.fallsDue due x d = true) →
            t.Settled d ∧ (t.chan d).arb.log.lapse = true
            ∧ (t.chan d).demand.list.fallback =
              if (t.chan d).demand.list.hasNetwork then (s.chan d).demand.list.fallback
              else
                match (s.profile d).fallback, (s.chan d).demand.lastNetworkWinner with
                | 0, _ => (s.chan d).demand.list.fallback
                | 1, _ => some ⟨.comfort, .ask .on, none⟩
                | _, some a => some ⟨.comfort, .ask a, none⟩
                | _, none => (s.chan d).demand.list.fallback)
        ∧ ({ s.chan d with demand := (t.chan d).demand } : ChannelState).Kept (t.chan d)

/-- START_GRACE_END: a channel with fallback ON that no network source has claimed receives a FALLBACK entry ON. The
moment it leaves is the model's choice (log 2). -/
def Obligations.StartGraceInsertsFallback : Prop :=
  ∀ (s : Machine.State) (start : Moment), s.graceStart = some start →
    ∃ t, exec .startGraceEnd s = .next t
      ∧ ({ s with now := max s.now (start + 1000 * s.cfg.zone.startGrace) } : Machine.State).GraceEnded t

/-! ### The switch controller -/

/-- ADMISSION with an interval above 0: the head leaves the queue for INRUSH with both timers at the window, the
admission is a switch-on, and nothing else changes. The moment it leaves is the model's choice (log 2). -/
def Obligations.AdmissionTakesHead : Prop :=
  ∀ (s : Machine.State) (c : Channel) (last : Moment),
    s.queue.head = some c → s.queue.lastAdmission = some last → 0 < s.cfg.zone.admissionInterval →
    (s.chan c).sw.out = .waiting →
    let now' := max s.now (last + 10 * s.cfg.zone.admissionInterval)
    let ends := now' + 100 * (s.profile c).window
    ∃ t, exec .admission s = .next t
      ∧ t = { s with
          now := now', chans := t.chans, queue := ⟨s.queue.front.erase c, s.queue.back.erase c, some now'⟩ }
      ∧ t.chan c = { s.chan c with
          sw := { (s.chan c).sw with out := .inrush ends, allowance := some ends }
          sense := { (s.chan c).sense with kind := .current, valid := false, saturated := false }
          prot := { (s.chan c).prot with stableRun := some now', offWait := .cleared, offCount := 0, onCount := 0 } }
      ∧ ∀ d : Channel, d ≠ c → t.chan d = s.chan d

/-- INRUSH_TIMER_EXPIRY: the channel runs in the granted mode, its first period starting at the expiry, or joins the
granted pattern; no switch-on, and the sample mark and the stable run go on. The moment it leaves is the model's
choice (log 2). -/
def Obligations.InrushEndsInGrantedMode : Prop :=
  ∀ (s : Machine.State) (c : Channel) (ends : Moment), (s.chan c).sw.out = .inrush ends →
    let now' := max s.now ends
    let p := s.profile c
    let x := s.chan c
    let later : Machine.State := { s with now := now' }
    (x.sw.granted = .steady → exec (.inrushTimerExpiry c) s = .next (later.setChan c { x with
        sw := { x.sw with out := .steady .steady now' }, sense := { x.sense with kind := .current } }))
    ∧ (∀ d, x.sw.granted = .pwm d →
        let on := (p.period * d + 500) / 1000
        let e := if on < 2 then 0 else if p.period - on < 2 then p.period else on
        exec (.inrushTimerExpiry c) s = .next (later.setChan c { x with
          sw := { x.sw with out := .pwm d on (.pwm d) now' }
          sense := { x.sense with kind := .periodic now' e (decide (5 ≤ e)) } }))
    ∧ (∀ f : Pattern, x.sw.granted = .flash f →
        let started := s.gens[f].users = 0
        let runs := ∃ due onTime offTime, s.gens[f].state = .running .on due onTime offTime
        ∃ t, exec (.inrushTimerExpiry c) s = .next t
          ∧ t = { later with chans := t.chans, gens := t.gens }
          ∧ (∀ d : Channel, d ≠ c → t.chan d = s.chan d)
          ∧ t.gens[f].users = s.gens[f].users + 1
          ∧ t.gens[f].state = (if s.gens[f].users = 0 then
              .running .on (now' + 100 * s.cfg.pattern[f].onTime) (100 * s.cfg.pattern[f].onTime)
                (100 * s.cfg.pattern[f].offTime) else s.gens[f].state)
          ∧ (∀ q : Pattern, q ≠ f → t.gens[q] = s.gens[q])
          ∧ (started ∨ runs → t.chan c = { x with
              sw := { x.sw with
                out := .flash f
                allowance := if (p.kind = 0 ∨ p.kind = 2) ∧ 0 < p.window then some (now' + 100 * p.window)
                  else x.sw.allowance }
              sense := { x.sense with kind := .current } })
          ∧ (¬(started ∨ runs) → t.chan c = { x with
              sw := { x.sw with out := .flash f }, sense := { x.sense with kind := .voltage } }))

/-- The hand-over to a channel in OFF: the pair is recorded, and a granted output other than OFF leaves OFF by the first
line that applies: FLASH joins its pattern; a lamp or motor with an inrush window joins the queue, or with an interval of
0 is admitted at once; another channel with a window enters INRUSH; one without runs in the granted mode. -/
def Obligations.HandOverLeavesOff : Prop :=
  ∀ (s : Machine.State) (c : Channel) (g : Granted) (cls : Option Sys2Proof.Class), (s.chan c).sw.out = .off →
    let p := s.profile c
    let x : ChannelState := { s.chan c with sw := { (s.chan c).sw with granted := g, cls := cls } }
    let queueUsing := (p.kind = 0 ∨ p.kind = 2) ∧ 0 < p.window
    let ends := s.now + 100 * p.window
    let t := s.handOver c g cls
    (g = .off → t = s.setChan c x)
    ∧ (∀ f : Pattern, g = .flash f →
        let joined := s.genJoined f
        t = ({ s with gens := s.gens.set f joined } : Machine.State).setChan c
          (x.switchedOn s.now (.flash f) (if joined.isOn then .current else .voltage)
            (if joined.isOn = true ∧ queueUsing then some ends else x.sw.allowance)))
    ∧ (∀ staged : Staged, g = staged.granted →
        (queueUsing → 0 < s.cfg.zone.admissionInterval →
          (({ s with queue := s.queue.withTail c cls } : Machine.State).setChan c { x with
            sw := { x.sw with out := .waiting }
            sense := { x.sense with kind := .voltage }
            prot := { x.prot with offWait := .cleared, offCount := 0 } }).AdmissionTested t)
        ∧ (queueUsing → s.cfg.zone.admissionInterval = 0 →
            t = ({ s with queue := { s.queue with lastAdmission := some s.now } } : Machine.State).setChan c
              (x.switchedOn s.now (.inrush ends) .current (some ends)))
        ∧ (¬queueUsing → 0 < p.window → t = s.setChan c (x.switchedOn s.now (.inrush ends) .current (some ends)))
        ∧ (p.window = 0 →
            t = s.setChan c (x.switchedOn s.now (staged.running p.period s.now).1 (staged.running p.period s.now).2
              x.sw.allowance)))

/-- The hand-over to a channel that waits, is in INRUSH or runs: a granted OFF ends the output at once; a waiting channel
keeps its place or changes its group, or leaves the queue for a pattern; INRUSH records; STEADY and PWM are staged; and
the moves to, between and from patterns are made at once, without a switch-on. -/
def Obligations.HandOverMovesOutput : Prop :=
  ∀ (s : Machine.State) (c : Channel) (g : Granted) (cls : Option Sys2Proof.Class),
    let p := s.profile c
    let x : ChannelState := { s.chan c with sw := { (s.chan c).sw with granted := g, cls := cls } }
    let recorded := s.setChan c x
    let queueUsing := (p.kind = 0 ∨ p.kind = 2) ∧ 0 < p.window
    let ends := s.now + 100 * p.window
    let removed := s.queue.without c
    let t := s.handOver c g cls
    let joinsFrom := fun (u : Machine.State) (f : Pattern) (moved : ChannelState → OutState → SampleKind →
        Option Moment → ChannelState) =>
      let joined := u.genJoined f
      ({ u with gens := u.gens.set f joined } : Machine.State).setChan c
        (moved x (.flash f) (if joined.isOn then .current else .voltage)
          (if joined.isOn = true ∧ queueUsing then some ends else x.sw.allowance))
    let inPeriods := fun out : Staged → OutState =>
      (g = .off → t = s.setChan c (x.switchedOff s.now))
      ∧ (∀ staged : Staged, g = staged.granted → t = s.setChan c { x with sw := { x.sw with out := out staged } })
      ∧ ∀ f, g = .flash f → t = joinsFrom s f ChannelState.movedOn
    ((s.chan c).sw.out = .waiting →
      (g = .off → (({ s with queue := removed } : Machine.State).setChan c (x.switchedOff s.now)).AdmissionTested t)
      ∧ (∀ f, g = .flash f →
          (joinsFrom { s with queue := removed } f fun y => y.switchedOn s.now).AdmissionTested t)
      ∧ (∀ staged : Staged, g = staged.granted →
          let stays := if cls = some .safety ∨ cls = some .force then c ∈ s.queue.front else c ∈ s.queue.back
          let moved : Machine.State := { recorded with queue := removed.withTail c cls }
          let heads := fun q : SwitchQueue => (q.front ++ q.back).head?
          (stays → t = recorded)
          ∧ (¬stays → heads moved.queue = heads s.queue → t = moved)
          ∧ (¬stays → heads moved.queue ≠ heads s.queue → moved.AdmissionTested t)))
    ∧ (∀ due, (s.chan c).sw.out = .inrush due →
        (g = .off → t = s.setChan c (x.switchedOff s.now)) ∧ (g ≠ .off → t = recorded))
    ∧ (∀ old start, (s.chan c).sw.out = .steady old start → inPeriods fun staged => .steady staged start)
    ∧ (∀ duty onTime old start, (s.chan c).sw.out = .pwm duty onTime old start →
        inPeriods fun staged => .pwm duty onTime staged start)
    ∧ (∀ f : Pattern, (s.chan c).sw.out = .flash f →
        let left : Machine.State := { s with gens := s.gens.set f s.gens[f].left }
        let on := ∃ due onTime offTime, s.gens[f].state = .running .on due onTime offTime
        (g = .off → t = left.setChan c (x.switchedOff s.now))
        ∧ (g = .flash f → t = recorded)
        ∧ (∀ q, g = .flash q → q ≠ f → t = joinsFrom left q ChannelState.movedOn)
        ∧ ∀ staged : Staged, g = staged.granted →
          (¬on → queueUsing → t = left.setChan c (x.movedOn (.inrush ends) .current (some ends)))
          ∧ (on ∨ ¬queueUsing →
              t = left.setChan c (x.movedOn (staged.running p.period s.now).1 (staged.running p.period s.now).2
                x.sw.allowance)))

/-- PERIOD_BOUNDARY: the staged output is loaded, the on-time is computed from it, and the scanner takes the period.
The moment it leaves is the model's choice (log 2). -/
def Obligations.BoundaryLoadsStaged : Prop :=
  ∀ (s : Machine.State) (c : Channel) (staged : Staged) (start : Moment),
    ((s.chan c).sw.out = .steady staged start ∨ ∃ d n, (s.chan c).sw.out = .pwm d n staged start) →
    let period := (s.profile c).period
    let now' := max s.now (start + period)
    ∃ t, exec (.periodBoundary c) s = .next t
      ∧ t = { s with now := now', chans := t.chans }
      ∧ (∀ d : Channel, d ≠ c → t.chan d = s.chan d)
      ∧ (staged = .steady → t.chan c = { s.chan c with
          sw := { (s.chan c).sw with out := .steady .steady now' }
          sense := { (s.chan c).sense with kind := .current } })
      ∧ (∀ d, staged = .pwm d →
          let on := (period * d + 500) / 1000
          let e := if on < 2 then 0 else if period - on < 2 then period else on
          t.chan c = { s.chan c with
            sw := { (s.chan c).sw with out := .pwm d on (.pwm d) now' }
            sense := { (s.chan c).sense with kind := .periodic now' e (decide (5 ≤ e)) } })

/-- PHASE_TIMER_EXPIRY: a pattern goes from ON_PHASE to OFF_PHASE with its latched off time, and from OFF_PHASE to
ON_PHASE with times latched afresh; its users follow, with a new allowance for lamps and motors. The moment it
leaves is the model's choice (log 2). -/
def Obligations.PatternChangesPhase : Prop :=
  ∀ (s : Machine.State) (p : Pattern) (ends onTime offTime : Moment),
    let now' := max s.now ends
    (s.gens[p].state = .running .on ends onTime offTime →
      ∃ t, exec (.phaseTimerExpiry p) s = .next t
        ∧ t = { s with
            now := now', chans := t.chans,
            gens := s.gens.set p ⟨s.gens[p].users, .running .off (now' + offTime) onTime offTime⟩ }
        ∧ ∀ c : Channel, t.chan c =
            if (s.chan c).sw.out = .flash p then
              { s.chan c with sense := { (s.chan c).sense with kind := .voltage } } else s.chan c)
    ∧ (s.gens[p].state = .running .off ends onTime offTime →
      ∃ t, exec (.phaseTimerExpiry p) s = .next t
        ∧ t = { s with
            now := now', chans := t.chans,
            gens := s.gens.set p ⟨s.gens[p].users, .running .on (now' + 100 * s.cfg.pattern[p].onTime)
              (100 * s.cfg.pattern[p].onTime) (100 * s.cfg.pattern[p].offTime)⟩ }
        ∧ ∀ c : Channel, t.chan c =
            if (s.chan c).sw.out = .flash p then
              { s.chan c with
                sense := { (s.chan c).sense with kind := .current }
                sw := { (s.chan c).sw with
                  allowance :=
                    if ((s.profile c).kind = 0 ∨ (s.profile c).kind = 2) ∧ 0 < (s.profile c).window then
                      some (now' + 100 * (s.profile c).window)
                    else (s.chan c).sw.allowance } }
            else s.chan c)

/-- FLASH_SYNC: each named running pattern restarts at ON_PHASE, its users take CURRENT samples and the lamps and motors
among them a fresh allowance, nothing else of any channel changes, and the reply names those restarted; a mask above 15
gives RANGE. -/
def Obligations.FlashSyncRestartsPatterns : Prop :=
  ∀ (s : Machine.State) (rx : RxHeader) (args : Vector Byte 7) (src : NetSource), s.Takes rx src →
    let mask := args[0].toNat
    let named := fun p : Pattern => mask.testBit p.val = true ∧ s.gens[p].state ≠ .stopped
    (15 < mask → exec (.flashSync rx args) s = .next (s.replied 6 src 1 []))
    ∧ (mask ≤ 15 → ∃ (t : Machine.State) (m : Nat), exec (.flashSync rx args) s = .next (t.replied 6 src 0 [m])
        ∧ t = { s with chans := t.chans, gens := t.gens }
        ∧ m ≤ 15 ∧ (∀ p : Pattern, m.testBit p.val = true ↔ named p)
        ∧ (∀ p : Pattern, (named p → t.gens[p] = ⟨s.gens[p].users,
              .running .on (s.now + 100 * s.cfg.pattern[p].onTime) (100 * s.cfg.pattern[p].onTime)
                (100 * s.cfg.pattern[p].offTime)⟩)
            ∧ (¬named p → t.gens[p] = s.gens[p]))
        ∧ ∀ c : Channel,
          (∀ p, (s.chan c).sw.out = .flash p → named p → t.chan c = { s.chan c with
            sense := { (s.chan c).sense with kind := .current }
            sw := { (s.chan c).sw with
              allowance :=
                if ((s.profile c).kind = 0 ∨ (s.profile c).kind = 2) ∧ 0 < (s.profile c).window then
                  some (s.now + 100 * (s.profile c).window)
                else (s.chan c).sw.allowance } })
          ∧ ((∀ p, (s.chan c).sw.out = .flash p → ¬named p) → t.chan c = s.chan c))

/-! ### The sense scanner -/

/-- SCAN: the zone sample and the channel samples are recorded by sample kind, and each is then delivered once, as
recorded, to the supervisor or to the protection unit; the deliveries reach no demand list, no heat estimate and no
other block's state. The moment and the units of the readings are the model's choice (log 2, log 6), and it holds for
every order of delivery (log 7). -/
def Obligations.ScanRecordsSamples : Prop :=
  ∀ (s : Machine.State) (m : ScanReadings) (order : List Delivery), ∃ r t, exec (.scan m order) s = .next t
    ∧ r = { s with
        now := max s.now (s.scan.last + 10),
        scan := ⟨min 2000 (m.feeder.toNat / 100), min 600 (m.supply.toNat / 100), max s.now (s.scan.last + 10)⟩,
        chans := r.chans }
    ∧ (∀ c : Channel, r.chan c = { s.chan c with
        sense :=
          let y := (s.chan c).sense
          match y.kind with
          | .current => { y with
              current := min 6000 (m.current[c].toNat / 10), valid := true,
              saturated := decide (min 6000 (m.current[c].toNat / 10) = 6000) }
          | .voltage => { y with voltage := min 600 (m.voltage[c].toNat / 100) }
          | .periodic _ _ _ => y })
    ∧ t = (deliveryOrder order).foldl (fun u d =>
        match d with
        | .zone => u.deliverZone r.scan.supply
        | .channel c =>
          match (s.chan c).sense.kind with
          | .current => u.deliverCurrent c (r.chan c).sense.current (r.chan c).sense.saturated
          | .voltage => u.deliverVoltage c (decide ((s.chan c).sw.out = .off)) (r.chan c).sense.voltage r.scan.supply
          | .periodic _ _ _ => u) r
    ∧ (deliveryOrder order).Nodup ∧ (∀ d, d ∈ deliveryOrder order) ∧ (order.Nodup → order <+: deliveryOrder order)
    ∧ t = { r with chans := t.chans, queue := t.queue, gens := t.gens, sup := t.sup, faults := t.faults }
    ∧ ∀ c : Channel,
      (t.chan c).sense.current = (r.chan c).sense.current ∧ (t.chan c).sense.voltage = (r.chan c).sense.voltage
      ∧ (t.chan c).demand.list = (s.chan c).demand.list
      ∧ (t.chan c).prot.heat = (s.chan c).prot.heat

/-- PWM_MIDPOINT: the pending midpoint gives one on-state sample, recorded and delivered. The moment and the unit of
the reading are the model's choice (log 2, log 6). -/
def Obligations.MidpointRecordsSample : Prop :=
  ∀ (s : Machine.State) (c : Channel) (milliamps : Int) (start : Moment) (e : Nat), s.OutputsOk →
    (s.chan c).sense.kind = .periodic start e true →
    let reading := min 6000 (milliamps.toNat / 10)
    let r : Machine.State := ({ s with now := max s.now (start + e / 2) } : Machine.State).setChan c { s.chan c with
      sense := ⟨reading, true, decide (reading = 6000), (s.chan c).sense.voltage, .periodic start e false⟩ }
    let t := r.deliverCurrent c reading (decide (reading = 6000))
    exec (.pwmMidpoint c milliamps) s = .next t
      ∧ t = { r with chans := t.chans, queue := t.queue, gens := t.gens, faults := t.faults }
      ∧ (t.chan c).sense.current = reading ∧ (t.chan c).sense.valid = true
      ∧ (t.chan c).sense.saturated = decide (reading = 6000)
      ∧ (t.chan c).sense.voltage = (s.chan c).sense.voltage
      ∧ (t.chan c).demand.list = (s.chan c).demand.list ∧ (t.chan c).prot.heat = (s.chan c).prot.heat
      ∧ ((t.chan c).prot.state = (s.chan c).prot.state → (t.chan c).sense.kind = .periodic start e false)
      ∧ (∀ d : Channel, d ≠ c → s.SameOrAdmitted t d)

/-! ### The protection unit -/

/-- FUSE_TICK, the update: H loses its decay and gains the power term, from the sense record and the conduction as they
stand at the tick. That the next tick is due one period after the moment this one is taken is the model's reading (log
20), and the moment it leaves the model's choice (log 2). -/
def Obligations.FuseTickUpdatesHeat : Prop :=
  ∀ (s : Machine.State) (c : Channel),
    let p := s.profile c
    let h := (s.chan c).prot.heat
    let q := if (s.chan c).sense.valid then min 1023 (64 * (s.chan c).sense.current / (10 * p.nominal)) else 64
    let fraction := match (s.chan c).sw.out with
      | .off => 0
      | .waiting => 0
      | .inrush _ => 1000
      | .steady _ _ => 1000
      | .pwm _ on _ _ => if on < 2 then 0 else if p.period - on < 2 then 1000 else 1000 * on / p.period
      | .flash f => match s.gens[f].state with
        | .running .on _ _ _ => 1000
        | _ => 0
    ∃ t, exec (.fuseTick c) s = .next t
      ∧ t = { s with
          now := max s.now ((s.chan c).prot.lastTick + 10), chans := t.chans, queue := t.queue, gens := t.gens
          faults := t.faults }
      ∧ (t.chan c).prot.heat = min 4294967295 (h - h / 2 ^ p.decayShift + q ^ 2 * fraction / 1000)
      ∧ (t.chan c).prot.lastTick = t.now
      ∧ (t.chan c).demand.list = (s.chan c).demand.list
      ∧ (∀ d : Channel, d ≠ c → s.SameOrAdmitted t d)

/-- FUSE_TICK, the comparison: at most one move, by H as it stands at the start of the tick; a trip leads to TRIPPED
while retries remain and to LOCKOUT otherwise; an exit raises the retry counter up to its limit; a move is evaluated, and
without one the channel's record changes in H and the tick's moment alone. The moment it leaves is the model's choice (log
2), and that it is the one from which the next tick counts the model's reading (log 20). -/
def Obligations.FuseTickMovesState : Prop :=
  ∀ (s : Machine.State) (c : Channel),
    let p := s.profile c
    let r := (s.chan c).prot
    let tripLevel := p.trip * 2 ^ p.decayShift
    let warmLevel := p.warm * 2 ^ p.decayShift
    let now' := max s.now (r.lastTick + 10)
    let trips := (r.state = .ready ∨ r.state = .warm) ∧ tripLevel ≤ r.heat
    let exits := (r.state = .trippedOverload ∧ r.heat < p.warm * 2 ^ (p.decayShift - 1))
      ∨ (r.state = .trippedShort .expired ∧ r.heat < tripLevel)
    ∃ t, exec (.fuseTick c) s = .next t
      ∧ (trips → r.retries < p.retryLimit → (t.chan c).prot.state = .trippedOverload
          ∧ t.faults = s.faults.occur now' (.overloadTrip c))
      ∧ (trips → p.retryLimit ≤ r.retries → (t.chan c).prot.state = .lockout .overload
          ∧ t.faults = s.faults.report now' [.occur (.overloadTrip c), .occur (.lockout c)])
      ∧ (exits → (t.chan c).prot.state = if warmLevel ≤ r.heat then .warm else .ready)
      ∧ (exits → (t.chan c).prot.retries = if r.retries < p.retryLimit then r.retries + 1 else r.retries)
      ∧ (r.state = .ready → warmLevel ≤ r.heat → r.heat < tripLevel → (t.chan c).prot.state = .warm)
      ∧ (r.state = .warm → r.heat < 7 * p.warm * 2 ^ p.decayShift / 8 → r.heat < tripLevel →
          (t.chan c).prot.state = .ready)
      ∧ (¬trips → ¬exits → (r.state = .ready → r.heat < warmLevel) →
          (r.state = .warm → 7 * p.warm * 2 ^ p.decayShift / 8 ≤ r.heat) → (t.chan c).prot.state = r.state)
      ∧ (¬exits → (t.chan c).prot.retries = r.retries)
      ∧ (¬trips → t.faults = s.faults)
      ∧ (let u := ({ s with now := now', faults := t.faults } : Machine.State).setChan c { s.chan c with
          prot := { r with
            heat := (t.chan c).prot.heat, lastTick := now', state := (t.chan c).prot.state
            retries := (t.chan c).prot.retries, stableRun := if trips then none else r.stableRun } }
        ((t.chan c).prot.state = r.state → t = u) ∧ ((t.chan c).prot.state ≠ r.state → u.EvaluatesTo t [c]))

/-- The timers that only expire: ALLOWANCE_TIMER_EXPIRY, OFF_TIME_WAIT_COMPLETE, RETRY_DELAY_EXPIRY,
STABLE_RUN_EXPIRY and UPTIME_TICK each write their own fields and nothing else. The moment each leaves is the model's
choice (log 2). -/
def Obligations.TimersExpire : Prop :=
  ∀ (s : Machine.State) (c : Channel),
    let later := fun t : Moment => ({ s with now := max s.now t } : Machine.State)
    let x := s.chan c
    (∀ ends, x.sw.allowance = some ends →
      exec (.allowanceTimerExpiry c) s =
        .next ((later ends).setChan c { x with sw := { x.sw with allowance := none } }))
    ∧ (∀ start, x.prot.offWait = .since start →
      exec (.offTimeWaitComplete c) s =
        .next ((later (start + 200)).setChan c { x with prot := { x.prot with offWait := .complete } }))
    ∧ (∀ ends, x.prot.state = .trippedShort (.running ends) →
      exec (.retryDelayExpiry c) s =
        .next ((later ends).setChan c { x with prot := { x.prot with state := .trippedShort .expired } }))
    ∧ (∀ start, x.prot.stableRun = some start →
      exec (.stableRunExpiry c) s =
        .next ((later (start + 300000)).setChan c { x with prot := { x.prot with retries := 0, stableRun := none } }))
    ∧ exec .uptimeTick s =
        .next (let t := later (s.faults.secondStart + 10000)
          { t with
            faults := { s.faults with uptime := min 16777215 (s.faults.uptime + 1), secondStart := t.now } })

/-- The delivery of an on-state sample: the short test by allowance, saturation and ratio; a trip starts the retry
delay or locks out, and the channel's evaluation turns it OFF, its heat, demand list and readings kept and other channels
at most admitted; a delivery in TRIPPED or LOCKOUT changes nothing. The allowance is in
force until its expiry is taken (log 12). -/
def Obligations.ShortTestTrips : Prop :=
  ∀ (s : Machine.State) (c : Channel) (current : Nat) (saturated : Bool),
    let p := s.profile c
    let r := (s.chan c).prot
    let q := min 1023 (64 * current / (10 * p.nominal))
    let met := if (s.chan c).sw.allowance = none then saturated = true ∨ p.shortRatio ≤ q
      else saturated = false ∧ min (2 * p.shortRatio) 1023 ≤ q
    let t := s.deliverCurrent c current saturated
    let free := r.state = .ready ∨ r.state = .warm
    let trips := fun (state : ProtState) (l : FaultList) =>
      (({ s with faults := l } : Machine.State).setChan c { s.chan c with
        prot := { r with state := state, stableRun := none } }).EvaluatesTo t [c]
      ∧ (t.chan c).prot.state = state ∧ t.faults = l ∧ (t.chan c).arb.granted = .off
      ∧ (∀ d : Channel, d ≠ c → s.SameOrAdmitted t d)
    (¬free → t = s)
    ∧ (free → met → r.retries < p.retryLimit →
        trips (.trippedShort (.running (s.now + 1000 * p.retryDelay))) (s.faults.occur s.now (.shortTrip c)))
    ∧ (free → met → p.retryLimit ≤ r.retries →
        trips (.lockout .short) (s.faults.report s.now [.occur (.shortTrip c), .occur (.lockout c)]))
    ∧ (free → ¬met → (t.chan c).prot.state = r.state ∧ t = { s with chans := t.chans, faults := t.faults }
        ∧ (t.chan c).prot.retries = r.retries ∧ (t.chan c).sw = (s.chan c).sw ∧ (t.chan c).arb = (s.chan c).arb
        ∧ ∀ d : Channel, d ≠ c → t.chan d = s.chan d)

/-- The on-state open-load check: a sample of a RUNNING channel without an allowance in force, in READY or WARM and not
tripped by it, below the threshold counts, and the fiftieth begins OPEN_LOAD_ON; one at or above it clears the count and
ends the condition; a threshold of 0 ends it and counts nothing. The allowance is in force until its expiry is taken
(log 12). -/
def Obligations.OnStateOpenLoadCheck : Prop :=
  ∀ (s : Machine.State) (c : Channel) (current : Nat) (saturated : Bool),
    let p := s.profile c
    let x := s.chan c
    let r := x.prot
    let q := min 1023 (64 * current / (10 * p.nominal))
    let met := if x.sw.allowance = none then saturated = true ∨ p.shortRatio ≤ q
      else saturated = false ∧ min (2 * p.shortRatio) 1023 ≤ q
    let checked := x.sw.out ≠ .off ∧ x.sw.out ≠ .waiting ∧ (∀ due, x.sw.out ≠ .inrush due) ∧ x.sw.allowance = none
    let t := s.deliverCurrent c current saturated
    let count := min 50 (r.onCount + 1)
    let leaves := fun (n : Nat) (flag : Bool) (l : FaultList) =>
      t = ({ s with faults := l } : Machine.State).setChan c
        { x with prot := { r with onCount := n, openLoadOn := flag } }
    let ended := if r.openLoadOn = true then s.faults.finish s.now (.openLoadOn c) else s.faults
    (r.state = .ready ∨ r.state = .warm) → ¬met →
      (¬checked → t = s)
      ∧ (checked → p.openLoad = 0 → leaves r.onCount false ended)
      ∧ (checked → 0 < p.openLoad → p.openLoad ≤ current → leaves 0 false ended)
      ∧ (checked → current < p.openLoad → count < 50 → leaves count r.openLoadOn s.faults)
      ∧ (checked → current < p.openLoad → count = 50 → r.openLoadOn = false →
          leaves 50 true (s.faults.occur s.now (.openLoadOn c)))
      ∧ (checked → current < p.openLoad → count = 50 → r.openLoadOn = true → leaves 50 true s.faults)

/-- A check sample of an OFF channel: the off-state count, and the beginning and end of both off-state conditions with
their reports; any other voltage sample changes nothing. That a beginning is tested before the ends is the model's
reading (log 25). -/
def Obligations.OffStateChecks : Prop :=
  ∀ (s : Machine.State) (c : Channel) (wasOff : Bool) (voltage supply : Nat),
    let r := (s.chan c).prot
    let pulls := (s.profile c).pullUp = 1
    let half := supply ≤ 2 * voltage
    let eight := 8 * supply ≤ 10 * voltage
    let checked := wasOff = true ∧ r.offWait = .complete ∧ 100 ≤ supply
    let t := s.deliverVoltage c wasOff voltage supply
    let count := (t.chan c).prot.offCount
    (¬checked → t = s)
    ∧ (checked →
        t = { s with chans := t.chans, faults := t.faults }
        ∧ (∀ d : Channel, d ≠ c → t.chan d = s.chan d)
        ∧ ((pulls ∧ half ∨ ¬pulls ∧ eight) → count = min 10 (r.offCount + 1))
        ∧ (¬(pulls ∧ half ∨ ¬pulls ∧ eight) → count = 0)
        ∧ ((t.chan c).prot.openLoadOff = true ↔ (r.openLoadOff = true ∨ pulls ∧ count = 10) ∧ half)
        ∧ ((t.chan c).prot.shortToSupply = true ↔ (r.shortToSupply = true ∨ ¬pulls ∧ count = 10) ∧ eight)
        ∧ t.chan c = { s.chan c with
            prot := { r with
              offCount := count, openLoadOff := (t.chan c).prot.openLoadOff,
              shortToSupply := (t.chan c).prot.shortToSupply } }
        ∧ (let begun :=
            if count = 10 ∧ pulls ∧ r.openLoadOff = false then s.faults.occur s.now (.openLoadOff c)
            else if count = 10 ∧ ¬pulls ∧ r.shortToSupply = false then s.faults.occur s.now (.shortToSupply c)
            else s.faults
          let ended := if r.openLoadOff = true ∧ ¬half then begun.finish s.now (.openLoadOff c) else begun
          t.faults = if r.shortToSupply = true ∧ ¬eight then ended.finish s.now (.shortToSupply c) else ended))

/-! ### The supply supervisor -/

/-- FEEDER_FUSE_TICK: at most one move of the thermal level, L recomputed, H_f updated from the feeder current; a
changed L evaluates all channels, and an unchanged L touches none. The moment it leaves is the model's choice (log
2). -/
def Obligations.FeederTickMovesLevel : Prop :=
  ∀ s : Machine.State,
    let z := s.cfg.zone
    let v := s.sup
    let now' := max s.now (v.lastTick + 10)
    let dwell := now' - v.dwellStart
    let warm := z.feederWarm * 2 ^ z.feederShift ≤ v.heat
    let cool := v.heat < 3 * z.feederWarm * 2 ^ z.feederShift / 4
    let up := v.thermalLevel = 0 ∧ warm ∨ 1 ≤ v.thermalLevel ∧ v.thermalLevel < 3 ∧ warm ∧ 20000 ≤ dwell
    let down := 1 ≤ v.thermalLevel ∧ cool ∧ 50000 ≤ dwell
    let q := min 1023 (64 * s.scan.feeder / (10 * z.feederNominal))
    ∃ t, exec .feederFuseTick s = .next t
      ∧ t = { s with
          now := now', chans := t.chans, queue := t.queue, gens := t.gens, sup := t.sup, faults := t.faults }
      ∧ t.sup = { v with
          lastTick := now', thermalLevel := t.sup.thermalLevel, dwellStart := t.sup.dwellStart,
          level := t.sup.level, heat := min 4294967295 (v.heat - v.heat / 2 ^ z.feederShift + q ^ 2) }
      ∧ (up → t.sup.thermalLevel = v.thermalLevel + 1 ∧ t.sup.dwellStart = now')
      ∧ (down → ¬up → t.sup.thermalLevel = v.thermalLevel - 1 ∧ t.sup.dwellStart = now')
      ∧ (¬up → ¬down → t.sup.thermalLevel = v.thermalLevel ∧ t.sup.dwellStart = v.dwellStart)
      ∧ t.sup.level = max (max t.sup.thermalLevel t.sup.voltageLevel) t.sup.floorComponent
      ∧ t.faults = (if v.thermalLevel = 0 ∧ 1 ≤ t.sup.thermalLevel then s.faults.occur now' .feederWarm
          else if 1 ≤ v.thermalLevel ∧ t.sup.thermalLevel = 0 then s.faults.finish now' .feederWarm else s.faults)
      ∧ (t.sup.level ≠ v.level →
          ({ s with now := now', sup := t.sup, faults := t.faults } : Machine.State).EvaluatesTo t allChannels)
      ∧ (t.sup.level = v.level → t.chans = s.chans ∧ t.queue = s.queue ∧ t.gens = s.gens)

/-- SHED_FLOOR sets the sender's floor, FLOOR_EXPIRY ends it; L is recomputed, and a changed L evaluates all
channels. The moment an expiry leaves is the model's choice (log 2). -/
def Obligations.FloorsSetAndExpire : Prop :=
  ∀ s : Machine.State,
    let changes := fun (t : Machine.State) (now' : Moment) (src : NetSource) (f : Option Machine.Floor) =>
      t = { s with now := now', chans := t.chans, queue := t.queue, gens := t.gens, sup := t.sup }
      ∧ t.sup = { s.sup with floors := s.sup.floors.set src f, level := t.sup.level }
      ∧ t.sup.level = max (max t.sup.thermalLevel t.sup.voltageLevel) t.sup.floorComponent
      ∧ (t.sup.level ≠ s.sup.level →
          ({ s with now := now', sup := t.sup } : Machine.State).EvaluatesTo t allChannels)
      ∧ (t.sup.level = s.sup.level → t.chans = s.chans ∧ t.queue = s.queue ∧ t.gens = s.gens)
    (∀ (rx : RxHeader) (args : Vector Byte 7) (src : NetSource), s.Takes rx src →
      let level := args[0].toNat
      let duration := max 1 args[1].toNat
      (¬(src = .service ∧ s.lines.svc.active = false) →
        (level = 0 → ∃ t, exec (.shedFloor rx args) s = .next (t.replied 5 src 0 [0, 0, t.sup.level])
          ∧ changes t s.now src none)
        ∧ (1 ≤ level → ∃ t,
          exec (.shedFloor rx args) s = .next (t.replied 5 src 0 [min 3 level, duration, t.sup.level])
          ∧ changes t s.now src (some ⟨min 3 level, s.now + 1000 * duration⟩)))
      ∧ (src = .service → s.lines.svc.active = false →
        exec (.shedFloor rx args) s = .next (s.replied 5 src 2
          (match s.sup.floors.service with
            | some f => [f.level, (f.ends - s.now + 999) / 1000, s.sup.level]
            | none => [0, 0, s.sup.level]))))
    ∧ (∀ (src : NetSource) (f : Machine.Floor), s.sup.floors.get src = some f →
        ∃ t, exec (.floorExpiry src) s = .next t ∧ changes t (max s.now f.ends) src none)

/-- A zone sample: the voltage level follows the runs that have lasted long enough, the hold follows the high and the
release run, SUPPLY_LOW and SUPPLY_HIGH are reported at their beginning and end, a changed L or hold evaluates all
channels, and unchanged ones touch none. That the evaluations follow the whole sample is the model's reading (log 17).
-/
def Obligations.ZoneSampleMovesLevels : Prop :=
  ∀ (s : Machine.State) (volts : Nat), s.ConfigOk →
    let z := s.cfg.zone
    let t := s.deliverZone volts
    let run := fun (r : Option Moment) (met : Prop) [Decidable met] => if met then some (r.getD s.now) else none
    let lasted := fun (r : Option Moment) (n : Moment) => ∃ start, r = some start ∧ start + n ≤ s.now
    t.sup.low = ⟨run s.sup.low.one (volts < z.lv1), run s.sup.low.two (volts < z.lv2),
      run s.sup.low.three (volts < z.lv3)⟩
    ∧ t.sup.recovery = ⟨run s.sup.recovery.one (z.lv1 + 5 ≤ volts), run s.sup.recovery.two (z.lv2 + 5 ≤ volts),
      run s.sup.recovery.three (z.lv3 + 5 ≤ volts)⟩
    ∧ t.sup.high = run s.sup.high (340 ≤ volts) ∧ t.sup.release = run s.sup.release (volts < 320)
    ∧ (∀ n, lasted (t.sup.low.get n) 5000 → n ≤ t.sup.voltageLevel)
    ∧ (s.sup.voltageLevel < t.sup.voltageLevel → lasted (t.sup.low.get t.sup.voltageLevel) 5000)
    ∧ (t.sup.voltageLevel < s.sup.voltageLevel → lasted (t.sup.recovery.get s.sup.voltageLevel) 50000)
    ∧ (lasted (t.sup.recovery.get s.sup.voltageLevel) 50000 →
        t.sup.voltageLevel < s.sup.voltageLevel
        ∧ (t.sup.voltageLevel = 0 ∨ lasted (t.sup.low.get t.sup.voltageLevel) 5000))
    ∧ (s.sup.hold = false → (t.sup.hold = true ↔ lasted t.sup.high 20))
    ∧ (s.sup.hold = true → (t.sup.hold = false ↔ lasted t.sup.release 1000))
    ∧ t.sup.level = max (max t.sup.thermalLevel t.sup.voltageLevel) t.sup.floorComponent
    ∧ (t.sup.level ≠ s.sup.level ∨ t.sup.hold ≠ s.sup.hold →
        ({ s with sup := t.sup, faults := t.faults } : Machine.State).EvaluatesTo t allChannels)
    ∧ (t.sup.level = s.sup.level → t.sup.hold = s.sup.hold →
        t.chans = s.chans ∧ t.queue = s.queue ∧ t.gens = s.gens)
    ∧ t.sup = { s.sup with
        low := t.sup.low, recovery := t.sup.recovery, high := t.sup.high, release := t.sup.release,
        latest := some volts, voltageLevel := t.sup.voltageLevel, hold := t.sup.hold, level := t.sup.level }
    ∧ (let low : List Report :=
        if s.sup.voltageLevel = 0 ∧ 1 ≤ t.sup.voltageLevel then [.occur .supplyLow]
        else if 1 ≤ s.sup.voltageLevel ∧ t.sup.voltageLevel = 0 then [.finish .supplyLow] else []
      let high : List Report :=
        if s.sup.hold = false ∧ t.sup.hold = true then [.occur .supplyHigh]
        else if s.sup.hold = true ∧ t.sup.hold = false then [.finish .supplyHigh] else []
      t.faults = s.faults.report s.now (low ++ high))
    ∧ t = { s with chans := t.chans, queue := t.queue, gens := t.gens, sup := t.sup, faults := t.faults }

/-! ### The lines -/

/-- LINE_LEVEL_CHANGE: the raw state compared with the debounced state starts or ends a debounce; at length 0 the change
is made at once and the LINE entries of the mask are recomputed; a level that is no change has no effect. That a level
which is no change has no effect is the model's choice (log 24). -/
def Obligations.LevelChangeStartsDebounce : Prop :=
  ∀ (s : Machine.State) (l : Line) (high : Bool),
    let activeLevel := match l with
      | .conf i => decide (s.cfg.line[i].polarity = 0)
      | .emg => false
      | .svc => true
    let raw := decide (high = activeLevel)
    let r := s.line l
    (r.high = high → exec (.lineLevelChange l high) s = .next s)
    ∧ (r.high ≠ high → raw = r.active →
        exec (.lineLevelChange l high) s = .next (s.setLine l ⟨high, r.active, none⟩))
    ∧ (r.high ≠ high → raw ≠ r.active → s.debounceLength l ≠ 0 →
        exec (.lineLevelChange l high) s = .next (s.setLine l ⟨high, r.active, some s.now⟩))
    ∧ (∀ i, l = .conf i → r.high ≠ high → raw ≠ r.active → s.cfg.line[i].debounce = 0 →
        ∃ t, exec (.lineLevelChange l high) s = .next t
          ∧ (s.setLine l ⟨high, raw, none⟩).LinesRecomputed t fun c => s.cfg.line[i].mask.testBit c.val)

/-- DEBOUNCE_EXPIRY: the debounced state becomes the raw state; a line L0 to L3 recomputes the LINE entries of its
mask, EMG becoming ACTIVE sets a clear latch, SVC becoming INACTIVE ends SERVICE entries and floor. The moment it
leaves is the model's choice (log 2); it holds for both orders of the loss of SVC (log 8). -/
def Obligations.DebounceExpiryHandsOn : Prop :=
  ∀ (s : Machine.State) (l : Line) (floorFirst : Bool) (start : Moment), (s.line l).debounce = some start →
    let now' := max s.now (start + s.debounceLength l)
    let raw := s.raw l
    let moved : Machine.State := ({ s with now := now' } : Machine.State).setLine l ⟨(s.line l).high, raw, none⟩
    ∃ t, exec (.debounceExpiry l floorFirst) s = .next t
      ∧ (∀ i, l = .conf i →
          moved.LinesRecomputed t fun c => s.cfg.line[i].mask.testBit c.val)
      ∧ (l = .emg → raw = true → s.latch = false →
          ({ moved with latch := true, faults := s.faults.occur now' .emergency } : Machine.State).EvaluatesTo t allChannels)
      ∧ (l = .emg → (raw = false ∨ s.latch = true) → t = moved)
      ∧ (l = .svc → raw = true → t = moved)
      ∧ (l = .svc → raw = false →
          t = { moved with chans := t.chans, queue := t.queue, gens := t.gens, sup := t.sup }
          ∧ (s.sup.floors.service = none → t.sup = s.sup)
          ∧ (s.sup.floors.service ≠ none →
              t.sup = { s.sup with floors := s.sup.floors.set .service none, level := t.sup.level }
              ∧ t.sup.level = max (max t.sup.thermalLevel t.sup.voltageLevel) t.sup.floorComponent)
          ∧ (t.sup.level ≠ s.sup.level → t.AllSettled)
          ∧ ∀ c : Channel,
            (t.chan c).demand.list = { (s.chan c).demand.list with
              net := (s.chan c).demand.list.net.set .service none }
            ∧ ((s.chan c).demand.list.net.service ≠ none → t.Settled c)
            ∧ (t.sup.level = s.sup.level → (s.chan c).demand.list.net.service = none → s.SameOrAdmitted t c)
            ∧ ({ s.chan c with demand := (t.chan c).demand } : ChannelState).Kept (t.chan c))

/-- The LINE entry the lines call for: ON if any active bound line commands ON, otherwise the pattern of the
lowest-numbered, none without an active bound line. -/
def Obligations.LineEntryFollowsLines : Prop :=
  ∀ (s : Machine.State) (c : Channel), (∀ i : Fin 4, s.cfg.line[i].command ≤ 4) →
    let bound := fun i : Fin 4 => s.lines.conf[i].active = true ∧ s.cfg.line[i].mask.testBit c.val = true
    ((∀ i, ¬bound i) → s.lineEntry c = none)
    ∧ ((∃ i, bound i ∧ s.cfg.line[i].command = 0) → s.lineEntry c = some ⟨.safety, .ask .on, none⟩)
    ∧ (∀ (i : Fin 4) (p : Pattern), bound i → (∀ j, bound j → s.cfg.line[j].command ≠ 0) → (∀ j, bound j → i ≤ j) →
        s.cfg.line[i].command = p.val + 1 → s.lineEntry c = some ⟨.safety, .ask (.flash p), none⟩)

/-! ### The commands of COMMAND frames -/

/-- RELEASE removes the sender's entries in its scope, without fallback, evaluates the channels that lost one, leaves every
other but for an admission, and the reply carries base, exponent and count; arguments out of range give RANGE. -/
def Obligations.ReleaseRemovesEntries : Prop :=
  ∀ (s : Machine.State) (rx : RxHeader) (args : Vector Byte 7) (src : NetSource), s.Takes rx src →
    let scope := args[0].toNat
    let a := args[1].toNat
    let m := args[2].toNat
    let removes := fun base exponent : Nat =>
      let covered := fun c : Channel => base ≤ c.val ∧ c.val < base + 2 ^ exponent
      let losing := allChannels.filter fun c => decide (covered c) && ((s.chan c).demand.list.net.get src).isSome
      ∃ u t : Machine.State, exec (.release rx args) s = .next (t.replied 1 src 0 [base, exponent, losing.length])
        ∧ u = { s with chans := u.chans }
        ∧ (∀ c : Channel, u.chan c =
            if c ∈ losing then
              { s.chan c with demand := { (s.chan c).demand with
                list := { (s.chan c).demand.list with net := (s.chan c).demand.list.net.set src none } } }
            else s.chan c)
        ∧ u.EvaluatesTo t losing
        ∧ (∀ c : Channel, c ∉ losing → s.SameOrAdmitted t c)
    (scope = 0 → a ≤ 15 → removes a 0)
    ∧ (scope = 1 → a ≤ 15 → m ≤ 4 → removes (a / 2 ^ m * 2 ^ m) m)
    ∧ (scope = 2 → removes 0 4)
    ∧ (2 < scope ∨ scope < 2 ∧ 15 < a ∨ scope = 1 ∧ 4 < m →
        exec (.release rx args) s = .next (s.replied 1 src 1 []))

/-- CLEAR_CHANNEL of one channel: the retry counter becomes 0, a LOCKOUT ends in READY or TRIPPED by H, and the reply
reports the channel; without the right to clear nothing changes. Of all channels: every channel the sender may clear is
cleared as one is, then those that left LOCKOUT are evaluated, a channel not in LOCKOUT changes in its counter alone but
for an admission, the others are not cleared, and the reply carries the masks; other selectors give RANGE. -/
def Obligations.ClearChannelEndsLockout : Prop :=
  ∀ (s : Machine.State) (rx : RxHeader) (args : Vector Byte 7) (src : NetSource), s.Takes rx src →
    let may := fun c : Channel =>
      decide (src = .service) && s.lines.svc.active || (s.profile c).permits src
    let unlocked := fun c : Channel =>
      if (s.chan c).prot.heat < (s.profile c).warm * 2 ^ ((s.profile c).decayShift - 1) then ProtState.ready
      else .trippedOverload
    let cleared := allChannels.filter may
    let left := cleared.filter fun c => (s.chan c).prot.state.locked
    (∀ c : Channel, args[0].toNat = c.val →
      let r := (s.chan c).prot
      let items := fun x : ProtRecord => [c.val, x.state.code, x.state.kindCode, x.retries]
      (may c = true → ∃ t, exec (.clearChannel rx args) s = .next (t.replied 2 src 0 (items (t.chan c).prot))
        ∧ (t.chan c).prot.retries = 0 ∧ (t.chan c).prot.heat = r.heat
        ∧ ((∀ k, r.state ≠ .lockout k) → t = s.setChan c { s.chan c with prot := { r with retries := 0 } })
        ∧ (∀ k, r.state = .lockout k →
            (({ s with faults := s.faults.finish s.now (.lockout c) } : Machine.State).setChan c { s.chan c with
              prot := { r with retries := 0, state := unlocked c } }).EvaluatesTo t [c]
            ∧ (t.chan c).prot.state = unlocked c
            ∧ ∀ d : Channel, d ≠ c → s.SameOrAdmitted t d))
      ∧ (may c = false → exec (.clearChannel rx args) s = .next (s.replied 2 src 2 (items r))))
    ∧ (args[0].toNat = 255 →
      ∃ u t : Machine.State, exec (.clearChannel rx args) s = .next (t.replied 2 src 0
          [255, channelMask cleared % 256, channelMask cleared / 256 % 256, channelMask left % 256,
            channelMask left / 256 % 256])
        ∧ u = { s with chans := u.chans, faults := left.foldl (fun l c => l.finish s.now (.lockout c)) s.faults }
        ∧ (∀ c : Channel, u.chan c =
            if may c then
              { s.chan c with prot := { (s.chan c).prot with
                retries := 0
                state := if (s.chan c).prot.state.locked then unlocked c else (s.chan c).prot.state } }
            else s.chan c)
        ∧ u.EvaluatesTo t left
        ∧ (∀ c : Channel, may c = false → s.SameOrAdmitted t c)
        ∧ (∀ c : Channel, may c = true → (s.chan c).prot.state.locked = false → u.SameOrAdmitted t c))
    ∧ (16 ≤ args[0].toNat → args[0].toNat ≤ 254 → exec (.clearChannel rx args) s = .next (s.replied 2 src 1 []))

/-- CLEAR_EMERGENCY: refused from SERVICE without SVC and while EMG is ACTIVE; otherwise a set latch is cleared, its
condition ends, and all channels are evaluated. CLEAR_FAULTS keeps the ACTIVE records in their order and clears the
overflow flag; what the model keeps of reports that fall together is left open. -/
def Obligations.EmergencyAndFaultsCleared : Prop :=
  ∀ (s : Machine.State) (rx : RxHeader) (args : Vector Byte 7) (src : NetSource), s.Takes rx src →
    let lacks := src = .service ∧ s.lines.svc.active = false
    let bit := fun b : Bool => if b then 1 else 0
    let kept := s.faults.records.filter fun r => r.active
    (lacks → exec (.clearEmergency rx args) s =
      .next (s.replied 3 src 2 [bit s.latch, bit s.lines.emg.active]))
    ∧ (¬lacks → s.lines.emg.active = true →
        exec (.clearEmergency rx args) s = .next (s.replied 3 src 3 [bit s.latch, 1]))
    ∧ (¬lacks → s.lines.emg.active = false → s.latch = false →
        exec (.clearEmergency rx args) s = .next (s.replied 3 src 0 [0, 0]))
    ∧ (¬lacks → s.lines.emg.active = false → s.latch = true →
        ∃ t : Machine.State, exec (.clearEmergency rx args) s = .next (t.replied 3 src 0 [0, 0])
          ∧ ({ s with latch := false, faults := s.faults.finish s.now .emergency } : Machine.State).EvaluatesTo t allChannels)
    ∧ ∃ b : Together, exec (.clearFaults rx args) s =
      .next (({ s with
        faults := { s.faults with records := kept, overflow := false, together := b } } : Machine.State).replied 4 src 0
        [s.faults.records.length - kept.length, kept.length, 0])

/-- QUERY_CHANNEL and QUERY_PROTECTION change nothing but the port that answers; a channel above 15 gives RANGE.
The delay of an expired timer is the model's choice (log 26). -/
def Obligations.ChannelQueriesAnswered : Prop :=
  ∀ (s : Machine.State) (rx : RxHeader) (args : Vector Byte 7) (src : NetSource), s.Takes rx src →
    (15 < args[0].toNat →
      exec (.queryChannel rx args) s = .next (s.replied 7 src 1 [])
      ∧ exec (.queryProtection rx args) s = .next (s.replied 8 src 1 []))
    ∧ ∀ c : Channel, args[0].toNat = c.val →
      (∃ d, exec (.queryChannel rx args) s = .next (s.replied 7 src 0 d)
        ∧ d.length = 6 ∧ (∀ n ∈ d, n < 256)
        ∧ d[0]! % 4 = (s.chan c).sw.out.code ∧ d[0]! / 4 % 4 = (s.chan c).sw.out.modeCode
        ∧ d[0]! / 16 % 4 = (s.chan c).arb.granted.code
        ∧ (d[1]! + 256 * d[2]!) / 1024 % 8 = winnerCommand (s.chan c).arb.winner
        ∧ (d[3]! + 256 * d[4]!) / 1024 % 8 = winnerSource (s.chan c).arb.winner
        ∧ (d[3]! + 256 * d[4]!) / 8192 = winnerClass (s.chan c).arb.winner
        ∧ ((s.chan c).sw.out.applied ≤ 1000 → (d[1]! + 256 * d[2]!) % 1024 = (s.chan c).sw.out.applied)
        ∧ ((s.chan c).arb.granted.item ≤ 1000 → (d[3]! + 256 * d[4]!) % 1024 = (s.chan c).arb.granted.item)
        ∧ d[5]! = (s.chan c).arb.status.code % 64)
      ∧ exec (.queryProtection rx args) s = .next (s.replied 8 src 0
          [(s.chan c).prot.state.code + 4 * (s.chan c).prot.state.kindCode + 16 * ((s.chan c).prot.retries % 8),
            min 255 (100 * (s.chan c).prot.heat / ((s.profile c).trip * 2 ^ (s.profile c).decayShift)),
            (s.chan c).prot.state.delayRemaining s.now,
            flagBit (s.chan c).prot.openLoadOn + 2 * flagBit (s.chan c).prot.openLoadOff
              + 4 * flagBit (s.chan c).prot.shortToSupply + 8 * flagBit (s.chan c).sense.valid
              + 16 * flagBit (s.chan c).sense.saturated,
            (s.chan c).sense.current % 256, (s.chan c).sense.current / 256 % 256])

/-- QUERY_ENTRY, QUERY_ZONE, READ_FAULT and READ_LIMIT_LOG answer from the state as it stands and, but for the logs that
are asked to be cleared, change nothing; 255 names the sixteen logs and returns their union. The lapse time of an
expired entry is the model's choice (log 26). -/
def Obligations.ReadsAnswered : Prop :=
  ∀ (s : Machine.State) (rx : RxHeader) (args : Vector Byte 7) (src : NetSource), s.Takes rx src →
    let a := args[0].toNat
    let b := args[1].toNat
    (15 < a → exec (.queryEntry rx args) s = .next (s.replied 9 src 1 []))
    ∧ (∀ c : Channel, a = c.val →
        let l := (s.chan c).demand.list.entries
        (l.length ≤ b → exec (.queryEntry rx args) s = .next (s.replied 9 src 1 [l.length]))
        ∧ ∀ x e, l[b]? = some (x, e) → exec (.queryEntry rx args) s = .next (s.replied 9 src 0
            [l.length, Source.code x + 8 * Class.code e.cls, e.command.code + 8 * flagBit e.command.isSpent,
              e.command.argument, e.remaining s.now]))
    ∧ (1 < a → exec (.queryZone rx args) s = .next (s.replied 10 src 1 []))
    ∧ (a = 1 → exec (.queryZone rx args) s = .next (s.replied 10 src 0
        [s.faults.uptime % 256, s.faults.uptime / 256 % 256, s.faults.uptime / 65536 % 256]))
    ∧ (a = 0 → s.sup.Ok → exec (.queryZone rx args) s = .next (s.replied 10 src 0
        [s.scan.supply % 256, s.scan.supply / 256 % 256, s.scan.feeder % 256, s.scan.feeder / 256 % 256,
          s.sup.level + 4 * s.sup.thermalLevel + 16 * s.sup.voltageLevel + 64 * s.sup.floorComponent,
          flagBit s.latch + 2 * flagBit s.sup.hold + 4 * s.resetCause.code]))
    ∧ (1 < b → exec (.readFault rx args) s = .next (s.replied 11 src 1 []))
    ∧ (b ≤ 1 → s.faults.records.length ≤ a →
        exec (.readFault rx args) s = .next (s.replied 11 src 1 [0, 0, 0, 0, 0, s.faults.records.length]))
    ∧ (∀ r, s.faults.records[a]? = some r →
        (b = 0 → exec (.readFault rx args) s = .next (s.replied 11 src 0
          [r.key.code, r.key.channelCode, r.key.sourceCode, flagBit r.active, r.count, s.faults.records.length]))
        ∧ (b = 1 → exec (.readFault rx args) s = .next (s.replied 11 src 0
          [r.first % 256, r.first / 256 % 256, r.first / 65536 % 256,
            r.last % 256, r.last / 256 % 256, r.last / 65536 % 256])))
    ∧ (16 ≤ a ∧ a ≤ 254 ∨ 1 < b → exec (.readLimitLog rx args) s = .next (s.replied 12 src 1 []))
    ∧ (∀ c : Channel, a = c.val →
        (b = 0 → exec (.readLimitLog rx args) s = .next (s.replied 12 src 0 [a, (s.chan c).arb.log.code]))
        ∧ (b = 1 → exec (.readLimitLog rx args) s = .next
            ((s.setChan c { s.chan c with arb := { (s.chan c).arb with log := CauseSet.empty } }).replied 12 src 0
              [a, (s.chan c).arb.log.code])))
    ∧ (a = 255 → b ≤ 1 → ∃ (t : Machine.State) (u : CauseSet),
        exec (.readLimitLog rx args) s = .next (t.replied 12 src 0 [255, CauseSet.code u])
        ∧ (∀ k, u.has k = true ↔ ∃ c : Channel, (s.chan c).arb.log.has k = true)
        ∧ t = { s with chans := t.chans }
        ∧ ∀ c : Channel, t.chan c =
            if b = 0 then s.chan c
            else { s.chan c with arb := { (s.chan c).arb with log := CauseSet.empty } })

/-! ### The configuration store -/

/-- CONFIG_READ returns the value of the named field; CONFIG_WRITE applies the checks in their order, a refused
write changes nothing, and an accepted one changes the named field alone and has the effects of that change. BUSY while
the store reply is held and the value in a reply that names no field are the model's reading (log 27, log 14). -/
def Obligations.ConfigReadAndWrite : Prop :=
  ∀ (s : Machine.State) (rx : RxHeader) (args : Vector Byte 7) (src : NetSource), s.Takes rx src →
    let named := nameField args[0].toNat args[1].toNat args[2].toNat
    let v := args[3].toNat + 256 * args[4].toNat
    let items := fun x : Nat => [args[0].toNat, args[1].toNat, args[2].toNat, x % 256, x / 256 % 256]
    let present := match named with | some n => s.cfg.read n | none => 0
    let refused := fun r : Nat => exec (.configWrite rx args) s = .next (s.replied 14 src r (items present))
    let permitted := src = .service ∧ s.lines.svc.active = true
    let idle := s.store = .idle ∧ s.heldStore = none
    (named = none → exec (.configRead rx args) s = .next (s.replied 13 src 1 (items 0)))
    ∧ (∀ n, named = some n → exec (.configRead rx args) s = .next (s.replied 13 src 0 (items (s.cfg.read n))))
    ∧ (¬permitted → refused 2)
    ∧ (permitted → ¬idle → refused 4)
    ∧ (permitted → idle → named = none → refused 1)
    ∧ (∀ n, permitted → idle → named = some n → n.inRange v = false → refused 1)
    ∧ (∀ n, permitted → idle → named = some n → n.inRange v = true →
        (s.cfg.write n v).relatedAt n = false → refused 1)
    ∧ (∀ c f, permitted → idle → named = some (.profile c f) → (ConfigField.profile c f).inRange v = true →
        (s.cfg.write (.profile c f) v).relatedAt (.profile c f) = true →
        ((s.chan c).sw.out ≠ .off ∨ ((s.chan c).prot.state ≠ .ready ∧ (s.chan c).prot.state ≠ .warm)) → refused 3)
    ∧ (∀ n, permitted → idle → named = some n → n.inRange v = true →
        (s.cfg.write n v).relatedAt n = true →
        (∀ c f, n = .profile c f →
          (s.chan c).sw.out = .off ∧ ((s.chan c).prot.state = .ready ∨ (s.chan c).prot.state = .warm)) →
        let t := s.applyWrite n v
        exec (.configWrite rx args) s = .next (t.replied 14 src 0 (items v))
          ∧ t.cfg = s.cfg.write n v ∧ t.cfg.read n = v ∧ (∀ m, m ≠ n → t.cfg.read m = s.cfg.read m)
          ∧ t = { s with
              cfg := t.cfg, chans := t.chans, queue := t.queue, gens := t.gens, sup := t.sup, lines := t.lines,
              graceStart := t.graceStart }
          ∧ (∀ c f, n = .profile c f → t.Settled c)
          ∧ ∀ c : Channel, (t.chan c).prot.heat = (s.chan c).prot.heat)

/-- The effects of an accepted CONFIG_WRITE. One of the value held evaluates the channel of a profile field and changes
nothing else, the model's reading (log 13). One that changes a field: a profile field lowers the counter to a new retry
limit, restarts counts and wait for the open-load fields, and evaluates its channel; LV1 to LV3 test the runs against the
latest sample; the admission interval tests the admission condition; the start grace may end the wait; polarity, debounce,
mask and command of a line act on its debounce and on the LINE entries; any other field has no effect at the write. That a
changed status interval is among those others, so that a due moment it brings into the past is no effect of the write but a
STATUS_DUE of its own, is the model's reading (log 15). -/
def Obligations.ConfigWriteTakesEffect : Prop :=
  ∀ (s : Machine.State) (n : ConfigField) (v : Nat),
    let w : Machine.State := { s with cfg := s.cfg.write n v }
    let t := s.applyWrite n v
    (s.cfg.read n = v →
      (∀ c f, n = .profile c f → t = s.evaluate c ∧ t.Settled c) ∧ ((∀ c f, n ≠ .profile c f) → t = s))
    ∧ (s.cfg.read n ≠ v →
      (∀ c f, n = .profile c f →
        let r := (s.chan c).prot
        t = (w.setChan c { s.chan c with
            prot :=
              if f = .retryLimit then { r with retries := min r.retries v }
              else if f = .openLoad ∨ f = .pullUp then { r with onCount := 0, offCount := 0, offWait := .since s.now }
              else r }).evaluate c
        ∧ t.Settled c ∧ ∀ d : Channel, d ≠ c → s.SameOrAdmitted t d)
      ∧ (∀ f : ZoneField, n = .zone f →
        (f = .lv1 ∨ f = .lv2 ∨ f = .lv3 →
          let z := w.cfg.zone
          let run := fun (r : Option Moment) (met : Prop) [Decidable met] => if met then some (r.getD s.now) else none
          (s.sup.latest = none → t = w)
          ∧ ∀ volts, s.sup.latest = some volts → t = { w with
              sup := { s.sup with
                low := ⟨run s.sup.low.one (volts < z.lv1), run s.sup.low.two (volts < z.lv2),
                  run s.sup.low.three (volts < z.lv3)⟩
                recovery := ⟨run s.sup.recovery.one (z.lv1 + 5 ≤ volts), run s.sup.recovery.two (z.lv2 + 5 ≤ volts),
                  run s.sup.recovery.three (z.lv3 + 5 ≤ volts)⟩ } })
        ∧ (f = .admissionInterval → w.AdmissionTested t)
        ∧ (f = .startGrace →
            (∀ start, s.graceStart = some start → start + 1000 * v ≤ s.now → w.GraceEnded t)
            ∧ ((∀ start, s.graceStart = some start → s.now < start + 1000 * v) → t = w))
        ∧ (f = .statusInterval ∨ f = .feederNominal ∨ f = .feederShift ∨ f = .feederWarm → t = w))
      ∧ (∀ src, n = .lapse src → t = w)
      ∧ (∀ p f, n = .pattern p f → t = w)
      ∧ (∀ i f, n = .line i f →
        let r := s.lines.conf[i]
        let raw := decide (r.high = decide (w.cfg.line[i].polarity = 0))
        let bound := fun c : Channel => s.cfg.line[i].mask.testBit c.val || w.cfg.line[i].mask.testBit c.val
        let changed := w.setLine (.conf i) ⟨r.high, raw, none⟩
        (f = .polarity →
          (raw = r.active → t = w.setLine (.conf i) { r with debounce := none })
          ∧ (raw ≠ r.active → s.cfg.line[i].debounce ≠ 0 → t = w.setLine (.conf i) { r with debounce := some s.now })
          ∧ (raw ≠ r.active → s.cfg.line[i].debounce = 0 → changed.LinesRecomputed t bound))
        ∧ (f = .debounce →
          (∀ start, r.debounce = some start → start + 10 * v ≤ s.now → changed.LinesRecomputed t bound)
          ∧ ((∀ start, r.debounce = some start → s.now < start + 10 * v) → t = w))
        ∧ (f = .mask ∨ f = .command → w.LinesRecomputed t bound)))

/-- CONFIG_STORE is refused or starts a store without a reply; STORE_COMPLETION returns to IDLE, and a read-back
that differs marks the image and reports STORE_FAILED; the reply is placed, or held behind an earlier one. The
read-back operand and the mark on the image are the model's choice (log 18). -/
def Obligations.StoreRunsAndCompletes : Prop :=
  (∀ (s : Machine.State) (rx : RxHeader) (args : Vector Byte 7) (src : NetSource), s.Takes rx src →
    let permitted := src = .service ∧ s.lines.svc.active = true
    (¬permitted → exec (.configStore rx args) s = .next (s.replied 15 src 2 []))
    ∧ (permitted → (s.store ≠ .idle ∨ s.heldStore ≠ none) →
        exec (.configStore rx args) s = .next (s.replied 15 src 4 []))
    ∧ (permitted → s.store = .idle → s.heldStore = none →
        exec (.configStore rx args) s = .next { s with
          store := .storing s.now, image := ⟨s.cfg, 65535 - s.cfg.sum % 65536, false⟩ }))
  ∧ (∀ (s : Machine.State) (since : Moment) (readBack : Option StoredImage), s.store = .storing since →
    let same := match readBack with
      | none => True
      | some im => im.values = s.image.values ∧ im.check = s.image.check
    let done := fun (t : Machine.State) (result : Nat) =>
      if s.portA.link = .online ∧ s.portA.hasReply .service = true then
        { t with heldStore := some (replyFrame 15 .service result []) }
      else if s.portA.link = .online then
        { t with portA := { t.portA with replies := t.portA.replies ++ [replyFrame 15 .service result []] } }
      else t
    (same → exec (.storeCompletion readBack) s = .next (done { s with store := .idle } 0))
    ∧ (¬same → ∃ im, im.passes = false ∧
        exec (.storeCompletion readBack) s = .next (done { s with
          store := .idle, image := im, faults := s.faults.occur s.now .storeFailed } 3)))

/-! ### Ports and clock -/

/-- STATUS_DUE restarts the port's timer and, on an ONLINE port, places a STATUS frame of the state as it stands in
place of one that waits; the four states of a channel in it, and the zone's level, flags, links and record count. The
moment it leaves is the model's choice (log 2). -/
def Obligations.StatusIsBuilt : Prop :=
  (∀ (s : Machine.State) (port : Port),
    let now' := max s.now ((s.port port).lastDue + 10 * s.cfg.zone.statusInterval)
    let p := s.port port
    exec (.statusDue port) s = .next (({ s with now := now' } : Machine.State).setPort port
      { p with lastDue := now', status := if p.link = .online then some s.statusFrame else p.status }))
  ∧ (∀ x : ChannelState,
    let faulty := x.prot.state ≠ .ready ∧ x.prot.state ≠ .warm
    let asks := ∃ w, x.arb.winner = some w ∧ w.command ≠ .ask .off
    let rests := x.sw.out = .off ∨ x.sw.out = .waiting
    (faulty → x.statusCode = 3) ∧ (¬faulty → asks → rests → x.statusCode = 2)
    ∧ (¬faulty → ¬rests → x.statusCode = 1) ∧ (¬faulty → ¬asks → rests → x.statusCode = 0))
  ∧ (∀ (s : Machine.State) (b j : Fin 4),
      (s.statusFrame[b.val]'(by omega)).toNat / 4 ^ j.val % 4 = (s.chan (groupChannel b j)).statusCode)
  ∧ ∀ s : Machine.State,
    let zone := s.statusFrame[4].toNat
    (s.sup.level ≤ 3 → zone % 4 = s.sup.level)
    ∧ zone.testBit 2 = s.latch ∧ zone.testBit 3 = s.sup.hold ∧ zone.testBit 4 = s.faults.overflow
    ∧ zone.testBit 5 = decide (s.portA.link = .online) ∧ zone.testBit 6 = decide (s.portB.link = .online)
    ∧ zone.testBit 7 = false
    ∧ (s.faults.records.length ≤ 16 → s.statusFrame[5].toNat = s.faults.records.length)
    ∧ s.statusFrame[6].toNat = 0 ∧ s.statusFrame[7].toNat = 0

/-- TAKE_INTO_TRANSMISSION takes the oldest REPLY, or the STATUS where no REPLY waits, which stand on the bus with the
part's identifiers; FRAME_SENT empties the buffer and the end of a REPLY to SERVICE places what is held behind it. BUS_OFF
makes a port OFFLINE and discards all it holds; LINK_RETURN makes it ONLINE one second later; the other port is left as it
was. The moment LINK_RETURN leaves is the model's choice (log 2). -/
def Obligations.FramesSentAndBusOff : Prop :=
  (∀ (s : Machine.State) (port : Port), (s.port port).link = .online → (s.port port).sending = none →
    let p := s.port port
    (∀ r rest, p.replies = r :: rest → exec (.takeIntoTransmission port) s =
      .next (s.setPort port { p with replies := rest, sending := some (.reply r) }))
    ∧ (∀ d, p.replies = [] → p.status = some d → exec (.takeIntoTransmission port) s =
      .next (s.setPort port { p with status := none, sending := some (.status d) })))
  ∧ (∀ (s : Machine.State) (port : Port) (f : TxFrame), (s.port port).sending = some f →
    let sent := s.setPort port { s.port port with sending := none }
    ((port = .b ∨ ∀ r, f = .reply r → r.requester ≠ .service) → exec (.frameSent port) s = .next sent)
    ∧ (∀ r, port = .a → f = .reply r → r.requester = .service →
        (s.heldStore = none → s.heldCommand = none → exec (.frameSent port) s = .next sent)
        ∧ (∀ h, s.heldStore = some h → exec (.frameSent port) s =
            .next (({ sent with heldStore := none } : Machine.State).queueReply h))
        ∧ (∀ h, s.heldStore = none → s.heldCommand = some h → exec (.frameSent port) s =
            .next (({ sent with heldCommand := none } : Machine.State).queueReply h))))
  ∧ (∀ (s : Machine.State) (port : Port),
    ((s.port port).sending = none → s.frameOnBus port = none)
    ∧ (∀ r, (s.port port).sending = some (.reply r) →
        s.frameOnBus port = some ⟨0x300 + 0x40 * s.zoneAddress + 0x21, r.data⟩)
    ∧ ∀ d, (s.port port).sending = some (.status d) →
        s.frameOnBus port = some ⟨0x300 + 0x40 * s.zoneAddress + 0x20, d⟩)
  ∧ ∀ s : Machine.State,
    (s.portA.link = .online → exec (.busOff .a) s = .next { s with
      portA := ⟨.offline s.now, [], none, none, s.portA.lastDue⟩, heldStore := none, heldCommand := none })
    ∧ (s.portB.link = .online → exec (.busOff .b) s = .next { s with
      portB := ⟨.offline s.now, [], none, none, s.portB.lastDue⟩ })
    ∧ (∀ since, s.portA.link = .offline since → exec (.linkReturn .a) s = .next { s with
        now := max s.now (since + 10000), portA := { s.portA with link := .online } })
    ∧ (∀ since, s.portB.link = .offline since → exec (.linkReturn .b) s = .next { s with
        now := max s.now (since + 10000), portB := { s.portB with link := .online } })

/-- Reports to the fault list. At a moment at which none has reached it: an occurrence is counted in the record of its
key, or makes a new record, for which the oldest PASSIVE record makes room, or is dropped; the end of a condition turns
its record PASSIVE; of several reports of one event each finds the list as the one before it left it. Of two events whose
reports fall together, of different keys: the order does not matter where both have records, or one has and the other is a
new occurrence; two new occurrences stand in their order where there is room for both or the list then full has a PASSIVE
record for each; with room for one in a list of ACTIVE records the second removes the record of the first if that is of an
event, and is dropped if it is of a condition; on a full list with one PASSIVE record the second is dropped; on a full list of ACTIVE records an end makes room for a new occurrence only where it is taken
first. Of the beginning and the end of one condition the one taken last decides. Reports taken after a CLEAR_FAULTS of the
same moment find the list it left. That two reports fall together when they
are of different events of the same 0.1 ms, and that R175 prevails there over the removal R173 gives, is the model's reading
(log 29, log 30). -/
def Obligations.ReportsReachFaultList : Prop :=
  ∀ (l : FaultList) (now' : Moment) (k : FaultKey), (l.records.map FaultRecord.key).Nodup → l.together.moment ≠ now' →
    let fresh := fun k : FaultKey => (⟨k, l.uptime, l.uptime, 1, !k.isEvent⟩ : FaultRecord)
    let leaves := fun (m : FaultList) (records : List FaultRecord) (overflow : Bool) =>
      m = { l with records := records, overflow := overflow, together := m.together }
    let full := 16 ≤ l.records.length
    let allActive := ∀ r ∈ l.records, r.active = true
    let new := fun k : FaultKey => ∀ r ∈ l.records, r.key ≠ k
    let two := fun a b : Report => (l.report now' [a]).report now' [b]
    (∀ a r b, l.records = a ++ r :: b → r.key = k →
      let again := { r with count := min 255 (r.count + 1), last := l.uptime, active := !k.isEvent }
      leaves (l.occur now' k) (a ++ again :: b) l.overflow
      ∧ leaves (l.finish now' k) (a ++ { r with active := false } :: b) l.overflow
      ∧ leaves (two (.occur k) (.finish k)) (a ++ { again with active := false } :: b) l.overflow
      ∧ leaves (two (.finish k) (.occur k)) (a ++ again :: b) l.overflow)
    ∧ (new k →
        leaves (l.finish now' k) l.records l.overflow
        ∧ (l.records.length < 16 → leaves (l.occur now' k) (l.records ++ [fresh k]) l.overflow
          ∧ leaves (two (.occur k) (.finish k)) (l.records ++ [{ fresh k with active := false }]) l.overflow
          ∧ leaves (two (.finish k) (.occur k)) (l.records ++ [fresh k]) l.overflow)
        ∧ (full → allActive → leaves (l.occur now' k) l.records true
          ∧ leaves (two (.occur k) (.finish k)) l.records true ∧ leaves (two (.finish k) (.occur k)) l.records true)
        ∧ (∀ a r b, full → l.records = a ++ r :: b → r.active = false → (∀ x ∈ a, x.active = true) →
            leaves (l.occur now' k) (a ++ b ++ [fresh k]) l.overflow))
    ∧ (∀ (first : Report) (rest : List Report) (last : Report),
        (l.report now' (first :: rest ++ [last])).contents =
          (((l.report now' (first :: rest)).settle (now' + 1)).report now' [last]).contents)
    ∧ (∀ reports : List Report,
        ((l.clear now').report now' reports).contents =
          (((l.clear now').settle (now' + 1)).report now' reports).contents)
    ∧ ∀ j : FaultKey, j ≠ k →
      ((∃ r ∈ l.records, r.key = j) → (∃ r ∈ l.records, r.key = k) →
        ∀ a b : Report, (a = .occur j ∨ a = .finish j) → (b = .occur k ∨ b = .finish k) →
          (two a b).contents = (two b a).contents)
      ∧ (new j → (∃ r ∈ l.records, r.key = k) →
        (two (.occur j) (.occur k)).contents = (two (.occur k) (.occur j)).contents
        ∧ ∃ r ∈ l.records, r.key = k ∧
          { r with count := min 255 (r.count + 1), last := l.uptime, active := !k.isEvent } ∈
            (two (.occur j) (.occur k)).records)
      ∧ (new j → new k → l.records.length ≤ 14 →
        leaves (two (.occur j) (.occur k)) (l.records ++ [fresh j, fresh k]) l.overflow)
      ∧ (new j → new k → l.records.length = 15 →
        (allActive → j.isEvent = true → leaves (two (.occur j) (.occur k)) (l.records ++ [fresh k]) l.overflow)
        ∧ (allActive → j.isEvent = false → leaves (two (.occur j) (.occur k)) (l.records ++ [fresh j]) true)
        ∧ ∀ a r b, l.records = a ++ r :: b → r.active = false → (∀ x ∈ a, x.active = true) →
          leaves (two (.occur j) (.occur k)) (a ++ b ++ [fresh j, fresh k]) l.overflow)
      ∧ (∀ a r b q c, l.records = a ++ r :: (b ++ q :: c) → full → new j → new k → r.active = false →
        q.active = false → (∀ x ∈ a ++ b, x.active = true) →
          leaves (two (.occur j) (.occur k)) (a ++ b ++ c ++ [fresh j, fresh k]) l.overflow)
      ∧ (∀ a r b, l.records = a ++ r :: b → full → new j →
        (new k → r.active = false → (∀ x ∈ a ++ b, x.active = true) →
          leaves (two (.occur j) (.occur k)) (a ++ b ++ [fresh j]) true)
        ∧ (r.key = k → allActive →
          leaves (two (.finish k) (.occur j)) (a ++ b ++ [fresh j]) l.overflow
          ∧ leaves (two (.occur j) (.finish k)) (a ++ { r with active := false } :: b) true))
end

