-- ==== Sys2Proof/Laws/State.lean ====
section
/-! SUPPORT. The small lemmas of the updates: what each named operation leaves of each field it does not write,
and how the records of a channel are read back. -/

namespace Sys2Proof.Machine

/-! ### A channel read after a write -/

@[simp] theorem State.chan_setChan_self (s : State) (c : Channel) (x : ChannelState) : (s.setChan c x).chan c = x := by
  simp [State.chan, State.setChan]

theorem State.chan_setChan_ne (s : State) {c d : Channel} (x : ChannelState) (h : d ≠ c) :
    (s.setChan c x).chan d = s.chan d := by
  have h' : c.val ≠ d.val := fun e => h (Fin.ext e.symm)
  simp [State.chan, State.setChan, h']

theorem State.chan_setChan (s : State) (c d : Channel) (x : ChannelState) :
    (s.setChan c x).chan d = if d = c then x else s.chan d := by
  by_cases h : d = c
  · subst h; simp
  · simp [State.chan_setChan_ne, h]

theorem State.ext_chan {s t : State} (h : ∀ c, s.chan c = t.chan c) : s.chans = t.chans := by
  apply Vector.ext
  intro i hi
  exact h ⟨i, hi⟩

/-! ### Fields left by the channel updates -/

/-- Writing back what a channel holds changes nothing. -/
@[simp] theorem State.setChan_chan (s : State) (c : Channel) : s.setChan c (s.chan c) = s := by
  have h : (s.setChan c (s.chan c)).chans = s.chans :=
    State.ext_chan fun d => by rw [State.chan_setChan]; split <;> simp_all
  calc s.setChan c (s.chan c) = { s with chans := (s.setChan c (s.chan c)).chans } := rfl
    _ = s := by rw [h]

/-- Of two writes of one channel the later stands. -/
@[simp] theorem State.setChan_setChan (s : State) (c : Channel) (x y : ChannelState) :
    (s.setChan c x).setChan c y = s.setChan c y := by
  have h : ((s.setChan c x).setChan c y).chans = (s.setChan c y).chans :=
    State.ext_chan fun d => by simp only [State.chan_setChan]; split <;> rfl
  calc (s.setChan c x).setChan c y = { s with chans := ((s.setChan c x).setChan c y).chans } := rfl
    _ = s.setChan c y := by rw [h]; rfl

@[simp] theorem State.setChan_cfg (s : State) (c x) : (s.setChan c x).cfg = s.cfg := rfl
@[simp] theorem State.setChan_now (s : State) (c x) : (s.setChan c x).now = s.now := rfl
@[simp] theorem State.setChan_queue (s : State) (c x) : (s.setChan c x).queue = s.queue := rfl
@[simp] theorem State.setChan_gens (s : State) (c x) : (s.setChan c x).gens = s.gens := rfl
@[simp] theorem State.setChan_sup (s : State) (c x) : (s.setChan c x).sup = s.sup := rfl
@[simp] theorem State.setChan_lines (s : State) (c x) : (s.setChan c x).lines = s.lines := rfl
@[simp] theorem State.setChan_latch (s : State) (c x) : (s.setChan c x).latch = s.latch := rfl
@[simp] theorem State.setChan_faults (s : State) (c x) : (s.setChan c x).faults = s.faults := rfl
@[simp] theorem State.setChan_pending (s : State) (c x) : (s.setChan c x).pending = s.pending := rfl
@[simp] theorem State.setChan_profile (s : State) (c x d) : (s.setChan c x).profile d = s.profile d := rfl

/-! ### Fields left by time, generators, ports and reports -/

@[simp] theorem State.advanceTo_now (s : State) (t : Moment) : (s.advanceTo t).now = max s.now t := rfl
@[simp] theorem State.advanceTo_chan (s : State) (t : Moment) (c) : (s.advanceTo t).chan c = s.chan c := rfl
@[simp] theorem State.advanceTo_cfg (s : State) (t : Moment) : (s.advanceTo t).cfg = s.cfg := rfl
@[simp] theorem State.advanceTo_pending (s : State) (t : Moment) : (s.advanceTo t).pending = s.pending := rfl

@[simp] theorem State.setGen_chan (s : State) (p g c) : (s.setGen p g).chan c = s.chan c := rfl
@[simp] theorem State.setGen_queue (s : State) (p g) : (s.setGen p g).queue = s.queue := rfl
@[simp] theorem State.setGen_pending (s : State) (p g) : (s.setGen p g).pending = s.pending := rfl

@[simp] theorem State.report_chan (s : State) (rs c) : (s.report rs).chan c = s.chan c := rfl
@[simp] theorem State.report_cfg (s : State) (rs) : (s.report rs).cfg = s.cfg := rfl
@[simp] theorem State.report_pending (s : State) (rs) : (s.report rs).pending = s.pending := rfl
@[simp] theorem State.report_faults (s : State) (rs) : (s.report rs).faults = s.faults.report s.now rs := rfl
@[simp] theorem State.occur_chan (s : State) (k c) : (s.occur k).chan c = s.chan c := rfl
@[simp] theorem State.occur_cfg (s : State) (k) : (s.occur k).cfg = s.cfg := rfl
@[simp] theorem State.occur_pending (s : State) (k) : (s.occur k).pending = s.pending := rfl
@[simp] theorem State.finish_chan (s : State) (k c) : (s.finish k).chan c = s.chan c := rfl
@[simp] theorem State.finish_cfg (s : State) (k) : (s.finish k).cfg = s.cfg := rfl
@[simp] theorem State.finish_pending (s : State) (k) : (s.finish k).pending = s.pending := rfl

@[simp] theorem State.port_setPort_self (s : State) (p r) : (s.setPort p r).port p = r := by cases p <;> rfl
@[simp] theorem State.setPort_chan (s : State) (p r c) : (s.setPort p r).chan c = s.chan c := by cases p <;> rfl
@[simp] theorem State.setPort_cfg (s : State) (p r) : (s.setPort p r).cfg = s.cfg := by cases p <;> rfl
@[simp] theorem State.setPort_faults (s : State) (p r) : (s.setPort p r).faults = s.faults := by cases p <;> rfl
@[simp] theorem State.setPort_pending (s : State) (p r) : (s.setPort p r).pending = s.pending := by cases p <;> rfl

@[simp] theorem State.setLine_chan (s : State) (l r c) : (s.setLine l r).chan c = s.chan c := by cases l <;> rfl
@[simp] theorem State.setLine_cfg (s : State) (l r) : (s.setLine l r).cfg = s.cfg := by cases l <;> rfl
@[simp] theorem State.setLine_pending (s : State) (l r) : (s.setLine l r).pending = s.pending := by cases l <;> rfl

/-! ### Tables of the sources -/

@[simp] theorem PerSource.get_set_self {α : Type} (t : PerSource α) (s x) : (t.set s x).get s = x := by cases s <;> rfl

theorem PerSource.get_set_ne {α : Type} (t : PerSource α) {s r : NetSource} (x) (h : r ≠ s) :
    (t.set s x).get r = t.get r := by
  cases s <;> cases r <;> first | rfl | exact absurd rfl h

theorem mem_allChannels (c : Channel) : c ∈ allChannels := by revert c; decide

theorem mem_allNetSources (s : NetSource) : s ∈ allNetSources := by cases s <;> decide

end Sys2Proof.Machine
end

