-- ==== Sys2Proof/Laws/Commands.lean ====
section
/-! SUPPORT. What a COMMAND frame at its port can do, and what its owner's answer becomes: cited by every statement
about a command instead of unfolding takeCommand. -/

namespace Sys2Proof.Machine

/-- No frame is both a DEMAND and a COMMAND frame: their identifiers lie apart (R182). -/
theorem State.demandSender_of_command {s : State} {rx : RxHeader} (h : s.commandSender rx ≠ none) :
    s.demandSender rx = none := by
  unfold State.commandSender at h
  unfold State.demandSender
  cases hn : s.frameOffset rx with
  | none => rfl
  | some n =>
    by_cases h16 : 16 ≤ n
    · have hs : senderAt (n / 4) = none := by
        obtain ⟨k, hk⟩ : ∃ k, n / 4 = k + 4 := ⟨n / 4 - 4, by omega⟩
        rw [hk]; rfl
      simp [hs, senderOn]
    · simp [hn, h16] at h

/-- The next step after the arrival of an accepted DEMAND frame is DEMAND (R183, R185). -/
theorem step_receive_demand {s : State} {rx : RxHeader} (h : s.demandSender rx ≠ none) (data : Vector Byte 8) :
    step (s.receive rx data) = exec (.demand rx data) s := by
  simp [State.receive, State.frameCommand, Option.isSome_iff_ne_none, h, step]

/-- The next step after the arrival of an accepted COMMAND frame is the command whose code it carries (R183, R187). -/
theorem step_receive_command {s : State} {rx : RxHeader} (h : s.commandSender rx ≠ none) (data : Vector Byte 8) :
    step (s.receive rx data) = exec (commandOfFrame rx data) s := by
  simp [State.receive, State.frameCommand, Option.isSome_iff_ne_none, State.demandSender_of_command h, h, step]

/-- The arrival of an ignored frame leaves no trace (R183). -/
theorem receive_ignored {s : State} {rx : RxHeader} (hd : s.demandSender rx = none) (hc : s.commandSender rx = none)
    (data : Vector Byte 8) : s.receive rx data = s := by
  simp [State.receive, State.frameCommand, hd, hc]

/-- A frame the port does not accept has no effect (R183). -/
theorem State.takeCommand_ignored {s : State} {rx : RxHeader} (h : s.commandSender rx = none) (code : Nat)
    (owner : NetSource → State → Taken) : s.takeCommand rx code owner = s := by
  simp [State.takeCommand, h]

/-- A COMMAND the discard test discards has no effect (R186). -/
theorem State.takeCommand_discarded {s : State} {rx : RxHeader} {src : NetSource} (h : s.commandSender rx = some src)
    (d : s.discards src = true) (code : Nat) (owner : NetSource → State → Taken) : s.takeCommand rx code owner = s := by
  simp [State.takeCommand, h, d]

/-- Any other COMMAND is passed to its owner, whose answer is placed (R186). -/
theorem State.takeCommand_taken {s : State} {rx : RxHeader} {src : NetSource} (h : s.Takes rx src) (code : Nat)
    (owner : NetSource → State → Taken) : s.takeCommand rx code owner = (owner src s).finish code src := by
  simp [State.takeCommand, h.1, h.2]

/-- An answer's REPLY frame, for the codes commands have (R184). -/
theorem Answer.toReply_eq (r : ReplyResult) (data : List Nat) {code : Nat} (h : code < 32) (src : NetSource) :
    (Answer.mk r data).toReply code src = replyFrame code src r.code data := by
  have e : NetSource.code src % 8 * 32 = 32 * NetSource.code src := by cases src <;> rfl
  simp [Answer.toReply, replyFrame, field, Nat.mod_eq_of_lt h, e]

/-- A taken command that answers at once leaves its state with the REPLY placed (R186). -/
theorem Taken.finish_some (s : State) (r : ReplyResult) (data : List Nat) {code : Nat} (h : code < 32)
    (src : NetSource) : (Taken.mk s (some ⟨r, data⟩)).finish code src = s.replied code src r.code data := by
  simp [Taken.finish, State.replied, Answer.toReply_eq r data h]

/-- A REPLY placed writes nothing but a port and port A's held reply. -/
theorem State.replied_frame (s : State) (code : Nat) (src : NetSource) (result : Nat) (data : List Nat) :
    s.replied code src result data =
      { s with
        portA := (s.replied code src result data).portA
        portB := (s.replied code src result data).portB
        heldCommand := (s.replied code src result data).heldCommand } := by
  unfold State.replied State.placeReply
  split
  · rfl
  · unfold State.queueReply
    simp only
    split
    · cases NetSource.port (replyFrame code src result data).requester <;> rfl
    · rfl

end Sys2Proof.Machine
end

