-- ==== Sys2Proof/Laws/Touches.lean ====
section
/-! SUPPORT. One lemma for each operation of the switch controller: what it can do to one channel, and what it leaves of
everything else. -/

namespace Sys2Proof.Machine

/-- What an operation of the switch controller on channel c does: it changes channels, queue and generators only;
it keeps what evaluations keep of every channel, its entries, its arbitration record and the pair handed to it; the
other channels are at most admitted; and no other channel joins the queue. -/
structure Touches (c : Channel) (s t : State) : Prop where
  frame : s.SameButChannels t
  kept : ∀ d, (s.chan d).Kept (t.chan d)
  records : ∀ d, (t.chan d).demand = (s.chan d).demand ∧ (t.chan d).arb = (s.chan d).arb
    ∧ (t.chan d).sw.granted = (s.chan d).sw.granted ∧ (t.chan d).sw.cls = (s.chan d).sw.cls
  others : ∀ d, d ≠ c → s.SameOrAdmitted t d
  queue : ∀ d, d ≠ c → t.queue.Holds d → s.queue.Holds d

/-! ### The relations compose -/

theorem State.SameButChannels.refl (s : State) : s.SameButChannels s := rfl

theorem State.SameButChannels.trans {s t u : State} (h : s.SameButChannels t) (k : t.SameButChannels u) :
    s.SameButChannels u := by
  unfold State.SameButChannels at *
  rw [k, h]

theorem ChannelState.Kept.refl (x : ChannelState) : x.Kept x := ⟨rfl, rfl, rfl, rfl, rfl⟩

theorem ChannelState.Kept.trans {x y z : ChannelState} (h : x.Kept y) (k : y.Kept z) : x.Kept z := by
  obtain ⟨h1, h2, h3, h4, h5⟩ := h
  obtain ⟨k1, k2, k3, k4, k5⟩ := k
  refine ⟨k1.trans h1, k2.trans h2, k3.trans h3, k4.trans h4, ?_⟩
  rw [k5, h5]

theorem Touches.refl (c : Channel) (s : State) : Touches c s s :=
  ⟨.refl s, fun _ => .refl _, fun _ => ⟨rfl, rfl, rfl, rfl⟩, fun _ _ => .inl rfl, fun _ _ h => h⟩

theorem State.SameOrAdmitted.trans {s t u : State} {d : Channel} (h : s.SameOrAdmitted t d) (k : t.SameOrAdmitted u d)
    (q : t.queue.Holds d → s.queue.Holds d) : s.SameOrAdmitted u d := by
  rcases h with h | ⟨hq, hi, hk, hd, ha, hg, hc⟩
  · rcases k with k | ⟨kq, ki, kk, kd, ka, kg, kc⟩
    · exact .inl (k.trans h)
    · exact .inr ⟨q kq, ki, h ▸ kk, kd.trans (by rw [h]), ka.trans (by rw [h]), kg.trans (by rw [h]), kc.trans (by rw [h])⟩
  · rcases k with k | ⟨kq, ki, kk, kd, ka, kg, kc⟩
    · exact .inr ⟨hq, k ▸ hi, k ▸ hk, k ▸ hd, k ▸ ha, k ▸ hg, k ▸ hc⟩
    · exact .inr ⟨hq, ki, hk.trans kk, kd.trans hd, ka.trans ha, kg.trans hg, kc.trans hc⟩

theorem Touches.trans {c : Channel} {s t u : State} (h : Touches c s t) (k : Touches c t u) : Touches c s u where
  frame := h.frame.trans k.frame
  kept d := (h.kept d).trans (k.kept d)
  records d := by
    obtain ⟨a1, a2, a3, a4⟩ := h.records d
    obtain ⟨b1, b2, b3, b4⟩ := k.records d
    exact ⟨b1.trans a1, b2.trans a2, b3.trans a3, b4.trans a4⟩
  others d hd := (h.others d hd).trans (k.others d hd) (h.queue d hd)
  queue d hd q := h.queue d hd (k.queue d hd q)

theorem Touches.ite {c : Channel} {s a b : State} {P : Prop} [Decidable P] (ha : Touches c s a) (hb : Touches c s b) :
    Touches c s (if P then a else b) := by
  split
  · exact ha
  · exact hb

/-! ### The elementary operations -/

/-- A write of one channel that keeps what evaluations keep, its entries, its arbitration record and its pair. -/
theorem touches_setChan {c : Channel} {s : State} {x : ChannelState} (hk : (s.chan c).Kept x)
    (hd : x.demand = (s.chan c).demand) (ha : x.arb = (s.chan c).arb) (hg : x.sw.granted = (s.chan c).sw.granted)
    (hc : x.sw.cls = (s.chan c).sw.cls) : Touches c s (s.setChan c x) where
  frame := rfl
  kept d := by
    by_cases h : d = c
    · subst h; rw [State.chan_setChan_self]; exact hk
    · rw [State.chan_setChan_ne _ _ h]; exact .refl _
  records d := by
    by_cases h : d = c
    · subst h; rw [State.chan_setChan_self]; exact ⟨hd, ha, hg, hc⟩
    · rw [State.chan_setChan_ne _ _ h]; exact ⟨rfl, rfl, rfl, rfl⟩
  others d h := .inl (State.chan_setChan_ne _ _ h)
  queue _ _ h := h

/-- A change of the generators alone. -/
theorem touches_gens (c : Channel) (s : State) (g) : Touches c s { s with gens := g } :=
  ⟨rfl, fun _ => .refl _, fun _ => ⟨rfl, rfl, rfl, rfl⟩, fun _ _ => .inl rfl, fun _ _ h => h⟩

/-- A change of the queue alone by which no other channel joins. -/
theorem touches_queue {c : Channel} {s : State} {q : SwitchQueue} (h : ∀ d, d ≠ c → q.Holds d → s.queue.Holds d) :
    Touches c s { s with queue := q } :=
  ⟨rfl, fun _ => .refl _, fun _ => ⟨rfl, rfl, rfl, rfl⟩, fun _ _ => .inl rfl, h⟩

theorem ProtRecord.report_kept (p : ProtRecord) (t : Moment) (old new : OutState) :
    p.report t old new = { p with
      stableRun := (p.report t old new).stableRun, onCount := (p.report t old new).onCount,
      offWait := (p.report t old new).offWait, offCount := (p.report t old new).offCount } := by
  unfold ProtRecord.report
  split
  · split <;> rfl
  · split
    · rfl
    · split <;> rfl

theorem touches_setOut (s : State) (c : Channel) (o : OutState) : Touches c s (s.setOut c o) :=
  touches_setChan ⟨rfl, rfl, rfl, rfl, ProtRecord.report_kept _ _ _ _⟩ rfl rfl rfl rfl

theorem touches_allowance (s : State) (c : Channel) (a) :
    Touches c s (s.withSwitch c fun w => { w with allowance := a }) :=
  touches_setChan (.refl _) rfl rfl rfl rfl

theorem touches_out (s : State) (c : Channel) (o) : Touches c s (s.withSwitch c fun w => { w with out := o }) :=
  touches_setChan (.refl _) rfl rfl rfl rfl

theorem SwitchQueue.holds_of_remove {q : SwitchQueue} {c d : Channel} (h : (q.remove c).Holds d) : q.Holds d :=
  h.imp List.mem_of_mem_erase List.mem_of_mem_erase

theorem SwitchQueue.holds_of_join {q : SwitchQueue} {c d : Channel} {cls} (hd : d ≠ c) (h : (q.join c cls).Holds d) :
    q.Holds d := by
  unfold SwitchQueue.join at h
  split at h
  · simpa [SwitchQueue.Holds, hd] using h
  · simpa [SwitchQueue.Holds, hd] using h

theorem SwitchQueue.holds_head {q : SwitchQueue} {c : Channel} (h : q.head = some c) : q.Holds c := by
  unfold SwitchQueue.head at h
  split at h
  · next e => injection h with h; subst h; exact .inl (by rw [e]; simp)
  · exact .inr (List.mem_of_head? h)

/-! ### Admission (R125, R126) -/

theorem touches_phaseAllowance (s : State) (c : Channel) : Touches c s (s.phaseAllowance c) := by
  unfold State.phaseAllowance
  split
  · exact touches_allowance s c _
  · exact .refl c s

theorem touches_enterInrush (s : State) (c : Channel) : Touches c s (s.enterInrush c) :=
  (touches_setOut s c _).trans (touches_allowance _ c _)

theorem enterInrush_out (s : State) (c : Channel) :
    ((s.enterInrush c).chan c).sw.out = .inrush (s.now + (s.profile c).windowLength) := by
  simp [State.enterInrush, State.startAllowance, State.withSwitch, State.setOut]

/-- An admission touches no channel but by admitting it from the queue. -/
theorem touches_admitHead (s : State) (c : Channel) : Touches c s s.admitHead := by
  unfold State.admitHead
  split
  · exact .refl c s
  · next h hh =>
    have hq := SwitchQueue.holds_head hh
    have k : Touches h s (({ s with queue := { s.queue.remove h with lastAdmission := some s.now } }).enterInrush h) :=
      (touches_queue (q := { s.queue.remove h with lastAdmission := some s.now }) fun _ _ hd =>
        SwitchQueue.holds_of_remove (q := s.queue) (c := h) hd).trans (touches_enterInrush _ h)
    refine ⟨k.frame, k.kept, k.records, fun d hd => ?_, fun d _ h => ?_⟩
    · by_cases e : d = h
      · subst e
        obtain ⟨a, b, e, f⟩ := k.records d
        exact .inr ⟨hq, ⟨_, enterInrush_out _ _⟩, k.kept d, a, b, e, f⟩
      · exact k.others d e
    · exact SwitchQueue.holds_of_remove (c := _) h

theorem touches_admitUpTo (c : Channel) : ∀ (n : Nat) (s : State), Touches c s (s.admitUpTo n)
  | 0, s => .refl c s
  | n + 1, s => by
    unfold State.admitUpTo
    split
    · exact (touches_admitHead s c).trans (touches_admitUpTo c n _)
    · exact .refl c s

theorem touches_admit (s : State) (c : Channel) : Touches c s s.admitQueued := touches_admitUpTo c _ s

theorem touches_unqueue (s : State) (c : Channel) : Touches c s (s.unqueue c) :=
  touches_queue fun _ _ h => SwitchQueue.holds_of_remove h

/-! ### Patterns and periods (R131, R136) -/

theorem touches_leavePattern (s : State) (c : Channel) (p : Pattern) : Touches c s (s.leavePattern p) :=
  touches_gens c s _

theorem touches_joinPattern (s : State) (c : Channel) (p : Pattern) : Touches c s (s.joinPattern c p) := by
  have k (g) : Touches c s ((s.setGen p g).setOut c (.flash p)) := (touches_gens c s _).trans (touches_setOut _ c _)
  exact .ite ((k _).trans (touches_phaseAllowance _ c)) (k _)

theorem touches_startPeriod (s : State) (c : Channel) (g : Staged) : Touches c s (s.startPeriod c g) := by
  cases g <;> exact touches_setOut s c _

/-! ### Taking a hand-over (R121 to R135) -/

theorem touches_joinQueue (s : State) (c : Channel) : Touches c s (s.joinQueue c) :=
  ((touches_queue fun _ hd h => SwitchQueue.holds_of_join hd h).trans (touches_setOut _ c _)).trans (touches_admit _ c)

theorem touches_regroup (s : State) (c : Channel) : Touches c s (s.regroup c) := by
  have k : Touches c s { s with queue := (s.queue.remove c).join c (s.chan c).sw.cls } :=
    touches_queue fun _ hd h => SwitchQueue.holds_of_remove (SwitchQueue.holds_of_join hd h)
  unfold State.regroup
  simp only
  split
  · exact .refl c s
  · split
    · exact k
    · exact k.trans (touches_admit _ c)

theorem touches_turnOff (s : State) (c : Channel) : Touches c s (s.turnOff c) := by
  unfold State.turnOff
  split
  · exact .refl c s
  · exact (((touches_unqueue s c).trans (touches_setOut _ c _)).trans (touches_allowance _ c _)).trans (touches_admit _ c)
  · exact (touches_setOut s c _).trans (touches_allowance _ c _)
  · exact (touches_setOut s c _).trans (touches_allowance _ c _)
  · exact (touches_setOut s c _).trans (touches_allowance _ c _)
  · exact ((touches_leavePattern s c _).trans (touches_setOut _ c _)).trans (touches_allowance _ c _)

theorem touches_enterRunning (s : State) (c : Channel) (g : Granted) : Touches c s (s.enterRunning c g) := by
  cases g with
  | off => exact touches_turnOff s c
  | steady => exact touches_startPeriod s c .steady
  | pwm d => exact touches_startPeriod s c (.pwm d)
  | flash p => exact touches_joinPattern s c p

theorem touches_leaveOff (s : State) (c : Channel) (g : Granted) : Touches c s (s.leaveOff c g) := by
  unfold State.leaveOff
  split
  · exact touches_joinPattern s c _
  · split
    · split
      · exact touches_joinQueue s c
      · exact (touches_queue (q := { s.queue with lastAdmission := some s.now }) fun _ _ h => h).trans
          (touches_enterInrush _ c)
    · split
      · exact touches_enterInrush s c
      · exact touches_enterRunning s c g

theorem touches_leaveFlash (s : State) (c : Channel) (p : Pattern) (g : Granted) : Touches c s (s.leaveFlash c p g) := by
  unfold State.leaveFlash
  simp only
  split
  · exact (touches_leavePattern s c p).trans (touches_enterInrush _ c)
  · exact (touches_leavePattern s c p).trans (touches_enterRunning _ c g)

theorem touches_actOn (s : State) (c : Channel) (g : Granted) : Touches c s (s.actOn c g) := by
  unfold State.actOn
  split
  · exact .refl c s
  · exact touches_leaveOff s c _
  · exact touches_turnOff s c
  · exact ((touches_unqueue s c).trans (touches_joinPattern _ c _)).trans (touches_admit _ c)
  · exact touches_regroup s c
  · exact .refl c s
  · split
    · exact .refl c s
    · exact (touches_leavePattern s c _).trans (touches_joinPattern _ c _)
  · exact touches_leaveFlash s c _ _
  · exact touches_joinPattern s c _
  · exact touches_out s c _
  · exact touches_out s c _

end Sys2Proof.Machine
end

