-- ==== Sys2Proof/Laws/Evaluation.lean ====
section
/-! SUPPORT. What an evaluation, and several in a row, can do: the lemmas every event that hands channels to the
arbitration unit cites instead of unfolding it. -/

namespace Sys2Proof.Machine

/-! ### What an evaluation reads is kept by evaluations -/

theorem ChannelState.Kept.protState {x y : ChannelState} (h : x.Kept y) : y.prot.state = x.prot.state := by
  rw [h.2.2.2.2]

theorem State.SameButChannels.limitInputs {s t : State} (h : s.SameButChannels t) (k : ∀ c, (s.chan c).Kept (t.chan c))
    (c : Channel) (cls : Option Sys2Proof.Class) : t.limitInputs c cls = s.limitInputs c cls := by
  have hp := (k c).protState
  unfold State.limitInputs State.profile
  rw [hp, h]

/-- A judgement reads nothing that evaluations change. -/
theorem State.SameButChannels.judge {s t : State} (h : s.SameButChannels t) (k : ∀ c, (s.chan c).Kept (t.chan c))
    (c : Channel) : t.judge c = s.judge c := by
  unfold State.judge
  simp only [(k c).1, h.limitInputs k]

/-! ### One evaluation (R48) -/

theorem recordJudgement_chan_self (s : State) (c : Channel) :
    (s.recordJudgement c).chan c =
      { s.chan c with
        demand := { (s.chan c).demand with
          lastNetworkWinner := lastWinnerAfter (s.chan c).demand.lastNetworkWinner (s.judge c).1 }
        arb := ⟨(s.judge c).1, (s.judge c).2.out.grant, (s.judge c).2.causes,
          (s.chan c).arb.log.union (s.judge c).2.causes⟩ } := by
  simp [State.recordJudgement]

theorem recordJudgement_chan_ne (s : State) {c d : Channel} (h : d ≠ c) :
    (s.recordJudgement c).chan d = s.chan d := State.chan_setChan_ne _ _ h

theorem recordJudgement_kept (s : State) (c d : Channel) : (s.chan d).Kept ((s.recordJudgement c).chan d) := by
  by_cases h : d = c
  · subst h; rw [recordJudgement_chan_self]; exact ⟨rfl, rfl, rfl, rfl, rfl⟩
  · rw [recordJudgement_chan_ne s h]; exact .refl _

/-- The state handed over: the pair recorded, before the switch controller acts. -/
theorem handOver_touches (s : State) (c : Channel) (g : Granted) (cls : Option Sys2Proof.Class) :
    Touches c (s.withSwitch c fun w => { w with granted := g, cls := cls }) (s.handOver c g cls) :=
  touches_actOn _ c g

/-- What one evaluation of channel c can do: everything the event that called it must know. -/
structure Evaluates (c : Channel) (s t : State) : Prop where
  frame : s.SameButChannels t
  kept : ∀ d, (s.chan d).Kept (t.chan d)
  others : ∀ d, d ≠ c → s.SameOrAdmitted t d
  queue : ∀ d, d ≠ c → t.queue.Holds d → s.queue.Holds d
  settled : t.Settled c
  log : (t.chan c).arb.log = (s.chan c).arb.log.union (s.judge c).2.causes
  lastWinner : (t.chan c).demand.lastNetworkWinner =
    lastWinnerAfter (s.chan c).demand.lastNetworkWinner (s.judge c).1

theorem evaluates (s : State) (c : Channel) : Evaluates c s (s.evaluate c) := by
  have hr : s.SameButChannels (s.recordJudgement c) := rfl
  have hk := recordJudgement_kept s c
  unfold State.evaluate
  simp only
  split
  · next h =>
    refine ⟨hr, hk, fun d hd => .inl (recordJudgement_chan_ne s hd), fun _ _ q => q, ?_, ?_, ?_⟩
    · refine ⟨?_, ?_, ?_, ?_, ?_⟩
      · rw [hr.judge hk, recordJudgement_chan_self]
      · rw [hr.judge hk, recordJudgement_chan_self]
      · rw [hr.judge hk, recordJudgement_chan_self]
      · rw [h.1, recordJudgement_chan_self]
      · rw [h.2, recordJudgement_chan_self]
    · rw [recordJudgement_chan_self]
    · rw [recordJudgement_chan_self]
  · clear * - hr hk
    generalize hg : (s.judge c).2.out.grant = g
    generalize hc : (s.judge c).1.map Winner.cls = cls
    have T := handOver_touches (s.recordJudgement c) c g cls
    generalize hu : ((s.recordJudgement c).withSwitch c fun w => { w with granted := g, cls := cls }) = u at T
    have hself : u.chan c = { (s.recordJudgement c).chan c with
        sw := { ((s.recordJudgement c).chan c).sw with granted := g, cls := cls } } := by
      rw [← hu]; simp [State.withSwitch]
    have hne : ∀ d, d ≠ c → u.chan d = s.chan d := fun d hd => by
      rw [← hu]; unfold State.withSwitch; rw [State.chan_setChan_ne _ _ hd, recordJudgement_chan_ne s hd]
    have huf : s.SameButChannels u := by rw [← hu]; rfl
    have huk : ∀ d, (s.chan d).Kept (u.chan d) := fun d => by
      by_cases hd : d = c
      · subst hd; rw [hself, recordJudgement_chan_self]; exact ⟨rfl, rfl, rfl, rfl, rfl⟩
      · rw [hne d hd]; exact .refl _
    have huq : u.queue = s.queue := by rw [← hu]; rfl
    have hf := huf.trans T.frame
    have hkk : ∀ d, (s.chan d).Kept (((s.recordJudgement c).handOver c g cls).chan d) :=
      fun d => (huk d).trans (T.kept d)
    obtain ⟨r1, r2, r3, r4⟩ := T.records c
    rw [hself] at r1 r2 r3 r4
    rw [recordJudgement_chan_self] at r1 r2
    refine ⟨hf, hkk, fun d hd => ?_, fun d hd q => huq ▸ T.queue d hd q, ⟨?_, ?_, ?_, ?_, ?_⟩, ?_, ?_⟩
    · exact State.SameOrAdmitted.trans (.inl (hne d hd)) (T.others d hd) (fun q => huq ▸ q)
    · rw [hf.judge hkk, r2]
    · rw [hf.judge hkk, r2]
    · rw [hf.judge hkk, r2]
    · rw [r3, r2]; exact hg.symm
    · rw [r4, r2]; exact hc.symm
    · rw [r2]
    · rw [r1]

/-! ### Several evaluations (R44, R49) -/

theorem State.Settled.kept {s t : State} {c : Channel} (h : s.Settled c) (f : s.SameButChannels t)
    (k : ∀ d, (s.chan d).Kept (t.chan d)) (ha : (t.chan c).arb = (s.chan c).arb)
    (hg : (t.chan c).sw.granted = (s.chan c).sw.granted) (hc : (t.chan c).sw.cls = (s.chan c).sw.cls) : t.Settled c := by
  obtain ⟨h1, h2, h3, h4, h5⟩ := h
  refine ⟨?_, ?_, ?_, ?_, ?_⟩
  · rw [f.judge k, ha]; exact h1
  · rw [f.judge k, ha]; exact h2
  · rw [f.judge k, ha]; exact h3
  · rw [hg, ha]; exact h4
  · rw [hc, ha]; exact h5

theorem State.Settled.other {s t : State} {c : Channel} (h : s.Settled c) (f : s.SameButChannels t)
    (k : ∀ d, (s.chan d).Kept (t.chan d)) (o : s.SameOrAdmitted t c) : t.Settled c := by
  rcases o with e | ⟨_, _, _, _, ha, hg, hc⟩
  · exact h.kept f k (by rw [e]) (by rw [e]) (by rw [e])
  · exact h.kept f k ha hg hc

/-- What evaluations of the channels of a list can do, and the queue they leave. -/
theorem evaluateEach_spec (l : List Channel) : ∀ s : State,
    s.Evaluated (s.evaluateEach l) l ∧ ∀ d, d ∉ l → (s.evaluateEach l).queue.Holds d → s.queue.Holds d := by
  unfold State.evaluateEach
  induction l with
  | nil =>
    intro s
    exact ⟨⟨rfl, fun _ => .refl _, fun _ _ => .inl rfl, by simp⟩, fun _ _ h => h⟩
  | cons c l ih =>
    intro s
    have e := evaluates s c
    obtain ⟨⟨f, k, o, st⟩, q⟩ := ih (s.evaluate c)
    refine ⟨⟨e.frame.trans f, fun d => (e.kept d).trans (k d), fun d hd => ?_, fun d hd => ?_⟩, fun d hd h => ?_⟩
    · obtain ⟨h1, h2⟩ : d ≠ c ∧ d ∉ l := by simpa using hd
      exact (e.others d h1).trans (o d h2) (e.queue d h1)
    · by_cases h2 : d ∈ l
      · exact st d h2
      · have h1 : d = c := by simpa [h2] using hd
        subst h1
        exact e.settled.other f k (o d h2)
    · obtain ⟨h1, h2⟩ : d ≠ c ∧ d ∉ l := by simpa using hd
      exact e.queue d h1 (q d h2 h)

/-- What evaluations of the channels of a list can do (R44, R48). -/
theorem evaluateEach_evaluated (s : State) (l : List Channel) : s.Evaluated (s.evaluateEach l) l :=
  (evaluateEach_spec l s).1

/-- What one evaluation can do (R48). -/
theorem evaluate_evaluated (s : State) (c : Channel) : s.Evaluated (s.evaluate c) [c] := evaluateEach_evaluated s [c]

/-- What an evaluation of all channels can do (R49): every channel settled. -/
theorem evaluateAll_evaluated (s : State) : s.Evaluated s.evaluateAll allChannels :=
  evaluateEach_evaluated s allChannels

/-- What the hand-over of the changed channels can do (R44). -/
theorem evaluateChanged_evaluated (s before : State) :
    s.Evaluated (s.evaluateChanged before)
      (allChannels.filter fun c => (before.chan c).demand.list.differs (s.chan c).demand.list) :=
  evaluateEach_evaluated s _

/-- What the evaluations of a list of channels make of a state, as the statements speak of it. -/
theorem evaluateEach_evaluatesTo (s : State) (l : List Channel) : s.EvaluatesTo (s.evaluateEach l) l :=
  ⟨rfl, evaluateEach_evaluated s l⟩

/-- An evaluation leaves the queue of commands. -/
theorem State.Evaluated.pending {s t : State} {l : List Channel} (h : s.Evaluated t l) : t.pending = s.pending := by
  rw [h.1]

/-! ### Evaluating what is evaluated -/

/-- Channel c is settled, and its log and last network winner already hold what an evaluation would add to them. -/
structure Idle (s : State) (c : Channel) : Prop where
  settled : s.Settled c
  log : (s.chan c).arb.log.union (s.chan c).arb.status = (s.chan c).arb.log
  lastWinner : lastWinnerAfter (s.chan c).demand.lastNetworkWinner (s.chan c).arb.winner =
    (s.chan c).demand.lastNetworkWinner

theorem CauseSet.union_self_right (a b : CauseSet) : (a.union b).union b = a.union b := by
  simp [CauseSet.union]

theorem lastWinnerAfter_idem (old : Option Ask) (w : Option Winner) :
    lastWinnerAfter (lastWinnerAfter old w) w = lastWinnerAfter old w := by
  rcases w with _ | ⟨src, cls, cmd⟩
  · rfl
  · cases src <;> cases cmd <;> rfl

/-- An evaluation leaves its channel idle. -/
theorem Evaluates.idle {c : Channel} {s t : State} (e : Evaluates c s t) : Idle t c := by
  have hj : t.judge c = s.judge c := e.frame.judge e.kept c
  refine ⟨e.settled, ?_, ?_⟩
  · rw [e.log, e.settled.2.2.1, hj, CauseSet.union_self_right]
  · rw [e.lastWinner, e.settled.1, hj, lastWinnerAfter_idem]

/-- An evaluation of another channel leaves a channel idle. -/
theorem Evaluates.idle_other {c d : Channel} {s t : State} (e : Evaluates c s t) (h : d ≠ c) (i : Idle s d) : Idle t d := by
  have o := e.others d h
  have hs := i.settled.other e.frame e.kept o
  rcases o with o | ⟨_, _, _, hd, ha, _, _⟩
  · exact ⟨hs, o ▸ i.log, o ▸ i.lastWinner⟩
  · exact ⟨hs, ha ▸ i.log, by rw [hd, ha]; exact i.lastWinner⟩

/-- An evaluation of an idle channel changes nothing. -/
theorem Idle.evaluate {s : State} {c : Channel} (i : Idle s c) : s.evaluate c = s := by
  obtain ⟨h1, h2, h3, h4, h5⟩ := i.settled
  have hr : s.recordJudgement c = s := by
    unfold State.recordJudgement
    simp only [← h1, ← h2, ← h3, i.log, i.lastWinner]
    exact State.setChan_chan s c
  unfold State.evaluate
  simp only [hr]
  rw [if_pos ⟨by rw [h4, h2], by rw [h5, h1]⟩]

theorem evaluateEach_idle (l : List Channel) : ∀ (s : State) (c : Channel), c ∈ l ∨ Idle s c → Idle (s.evaluateEach l) c := by
  induction l with
  | nil => intro s c h; simpa [State.evaluateEach] using h
  | cons d l ih =>
    intro s c h
    refine ih (s.evaluate d) c ?_
    by_cases hc : c = d
    · exact .inr (hc ▸ (evaluates s d).idle)
    · rcases h with h | h
      · exact .inl (by simpa [hc] using h)
      · exact .inr ((evaluates s d).idle_other hc h)

/-- Evaluations of idle channels change nothing. -/
theorem evaluateEach_of_idle (l : List Channel) : ∀ s : State, (∀ c ∈ l, Idle s c) → s.evaluateEach l = s := by
  induction l with
  | nil => intro s _; rfl
  | cons c l ih =>
    intro s h
    have hc : s.evaluate c = s := (h c (by simp)).evaluate
    unfold State.evaluateEach
    rw [List.foldl_cons, hc]
    exact ih s fun d hd => h d (by simp [hd])

/-- A second evaluation of all channels changes nothing (R49). -/
theorem evaluateAll_idem (s : State) : s.evaluateAll.evaluateAll = s.evaluateAll :=
  evaluateEach_of_idle _ _ fun c hc => evaluateEach_idle allChannels s c (.inl hc)

end Sys2Proof.Machine
end

