-- ==== Sys2Proof/Laws/Faults.lean ====
section
/-! SUPPORT. What a report can do to the fault list: which fields it leaves, what it makes of the records at a moment of
its own and beside others of the same moment, and that it keeps the list in order. -/

namespace Sys2Proof.Machine

/-! ### Fields a report leaves -/

@[simp] theorem FaultList.report_uptime (l : FaultList) (t rs) : (l.report t rs).uptime = l.uptime := by
  unfold FaultList.report; split <;> rfl
@[simp] theorem FaultList.report_secondStart (l : FaultList) (t rs) : (l.report t rs).secondStart = l.secondStart := by
  unfold FaultList.report; split <;> rfl
@[simp] theorem FaultList.report_nil (l : FaultList) (t) : l.report t [] = l := if_pos rfl
@[simp] theorem FaultList.settle_contents (l : FaultList) (t) : (l.settle t).contents = l.contents := rfl
@[simp] theorem FaultList.settle_uptime (l : FaultList) (t) : (l.settle t).uptime = l.uptime := rfl

theorem FaultList.report_cons (l : FaultList) (t : Moment) (r : Report) (rs : List Report) :
    l.report t (r :: rs) =
      { l with
        records := (l.joined t ⟨l.uptime, r :: rs⟩).after.records
        overflow := (l.joined t ⟨l.uptime, r :: rs⟩).after.overflow
        together := l.joined t ⟨l.uptime, r :: rs⟩ } := if_neg nofun

/-! ### What a report makes of the records -/

/-- The first event of a moment: its reports one after the other, against the list as it stands (R171 to R174). -/
theorem FaultList.report_apart {l : FaultList} {t : Moment} (h : l.together.moment ≠ t) (rs : List Report) :
    (l.report t rs).contents = rs.foldl (fun m r => m.take l.uptime [] r) l.contents := by
  cases rs with
  | nil => simp
  | cons r rs => rw [report_cons]; simp only [joined, if_neg h]; rfl

/-- A further event of a moment: all its events taken again from the list they found (R175). -/
theorem FaultList.report_together {l : FaultList} {t : Moment} (h : l.together.moment = t) (r : Report)
    (rs : List Report) :
    (l.report t (r :: rs)).contents =
      l.together.before.takeAll [] (l.together.events ++ [⟨l.uptime, r :: rs⟩]) := by
  rw [report_cons]; simp only [joined, if_pos h]; rfl

/-- A single occurrence at a moment of its own (R172, R173). -/
theorem FaultList.occur_apart {l : FaultList} {t : Moment} (h : l.together.moment ≠ t) (k : FaultKey) :
    (l.occur t k).contents = l.contents.occur l.uptime [] k := report_apart h _

/-- A single end at a moment of its own (R174). -/
theorem FaultList.finish_apart {l : FaultList} {t : Moment} (h : l.together.moment ≠ t) (k : FaultKey) :
    (l.finish t k).contents = l.contents.finish k := report_apart h _

/-- The keys of the records a report holds against others of the moment. -/
theorem FaultRecords.mem_holds {l : FaultRecords} {r : Report} {k : FaultKey} :
    k ∈ l.holds r ↔ r = .occur k ∧ ((∃ x ∈ l.records, x.key = k) ∨ 16 ≤ l.records.length) := by
  cases r with
  | finish j => simp [holds]
  | occur j =>
    by_cases h : l.records.any (fun x => x.key == j) || decide (16 ≤ l.records.length)
    · simp only [holds, if_pos h, List.mem_singleton]
      simp only [Bool.or_eq_true, List.any_eq_true, beq_iff_eq, decide_eq_true_eq] at h
      exact ⟨by rintro rfl; exact ⟨rfl, h⟩, fun e => (Report.occur.inj e.1).symm⟩
    · simp only [holds, if_neg h, List.not_mem_nil, false_iff]
      simp only [Bool.or_eq_true, List.any_eq_true, beq_iff_eq, decide_eq_true_eq] at h
      rintro ⟨e, h'⟩
      cases e
      exact h h'

/-- Two events of one report each that fall together: the first finds held what the second counts, the second what the
first holds (R175). -/
theorem FaultList.report_two {l : FaultList} {t : Moment} (h : l.together.moment ≠ t) (a b : Report) :
    ((l.report t [a]).report t [b]).contents =
      (l.contents.take l.uptime b.key?.toList a).take l.uptime (l.contents.holds a) b := by
  have e : (l.report t [a]).together = ⟨t, l.contents, [⟨l.uptime, [a]⟩]⟩ := by
    rw [report_cons]; simp only [joined, if_neg h]
  rw [report_together (by rw [e]), e, report_uptime]
  cases b <;>
    simp [FaultRecords.takeAll, FaultRecords.takeEvent, FaultRecords.holdsAll, EventReports.keys, Report.key?, List.filterMap]

/-! ### Every report keeps the list in order -/

theorem FaultRecord.Ok.mono {r : FaultRecord} {u v : Nat} (h : r.Ok u) (le : u ≤ v) : r.Ok v :=
  ⟨h.1, h.2.1, h.2.2.1, h.2.2.2.1.trans le, h.2.2.2.2⟩

theorem FaultRecord.Ok.at_last {r : FaultRecord} {u v : Nat} (h : r.Ok u) (le : r.last ≤ v) : r.Ok v :=
  ⟨h.1, h.2.1, h.2.2.1, le, h.2.2.2.2⟩

theorem FaultRecords.Ok.mono {l : FaultRecords} {u v : Nat} (h : l.Ok u) (le : u ≤ v) : l.Ok v :=
  ⟨h.1, h.2.1, fun r hr => (h.2.2 r hr).mono le⟩

theorem FaultRecord.fresh_ok (k : FaultKey) (u : Nat) : (FaultRecord.fresh k u).Ok u :=
  ⟨le_rfl, by simp [fresh], le_rfl, le_rfl, fun h => by simp_all [fresh]⟩

theorem FaultRecord.Ok.again {r : FaultRecord} {u : Nat} (h : r.Ok u) : (r.again u).Ok u :=
  ⟨by simp [FaultRecord.again], by simp [FaultRecord.again], h.2.2.1.trans h.2.2.2.1, le_rfl,
    fun e => by simp_all [FaultRecord.again]⟩

/-- Records whose keys and order stay are in order where each of them is. -/
theorem FaultRecords.Ok.map {l : FaultRecords} {u : Nat} (h : l.Ok u) (f : FaultRecord → FaultRecord) (o : Bool)
    (key : ∀ r, (f r).key = r.key) (ok : ∀ r, r.Ok u → (f r).Ok u) : FaultRecords.Ok ⟨l.records.map f, o⟩ u := by
  refine ⟨by simpa using h.1, ?_, ?_⟩
  · have e : FaultRecord.key ∘ f = FaultRecord.key := funext key
    simpa [List.map_map, e] using h.2.1
  · intro r hr
    obtain ⟨x, hx, rfl⟩ := List.mem_map.1 hr
    exact ok x (h.2.2 x hx)

/-- A fresh record after fewer than 16 of other keys. -/
theorem FaultRecords.Ok.append {rs : List FaultRecord} {u : Nat} {o : Bool} {k : FaultKey} (h : FaultRecords.Ok ⟨rs, o⟩ u)
    (n : rs.length < 16) (new : ∀ r ∈ rs, r.key ≠ k) : FaultRecords.Ok ⟨rs ++ [FaultRecord.fresh k u], o⟩ u := by
  refine ⟨by simpa using n, ?_, ?_⟩
  · rw [List.map_append, List.nodup_append]
    refine ⟨h.2.1, by simp, ?_⟩
    intro a ha b hb
    obtain ⟨r, hr, rfl⟩ := List.mem_map.1 ha
    obtain rfl : b = k := by simpa [FaultRecord.fresh] using hb
    exact new r hr
  · intro r hr
    rcases List.mem_append.1 hr with hr | hr
    · exact h.2.2 r hr
    · obtain rfl := List.mem_singleton.1 hr
      exact FaultRecord.fresh_ok k u

theorem FaultRecords.Ok.occur {l : FaultRecords} {u : Nat} (h : l.Ok u) (held : List FaultKey) (k : FaultKey) :
    (l.occur u held k).Ok u := by
  unfold FaultRecords.occur
  split
  · exact h.map _ _ (fun r => by split <;> rfl) fun r hr => by split <;> [exact hr.again; exact hr]
  · rename_i new
    replace new : ∀ r ∈ l.records, r.key ≠ k := by simpa using new
    split
    · exact h.append ‹_› new
    · split
      · rename_i any
        obtain ⟨x, hx, hr⟩ := List.any_eq_true.1 any
        have sub := List.eraseP_sublist (p := fun r : FaultRecord => r.removable held) (l := l.records)
        have len := List.length_eraseP_of_mem (p := fun r : FaultRecord => r.removable held) hx hr
        have pos := List.length_pos_of_mem hx
        refine FaultRecords.Ok.append ⟨sub.length_le.trans h.1, ?_, fun r hr => h.2.2 r (sub.subset hr)⟩ ?_
          fun r hr => new r (sub.subset hr)
        · exact h.2.1.sublist (sub.map _)
        · have := h.1; omega
      · exact h

theorem FaultRecords.Ok.finish {l : FaultRecords} {u : Nat} (h : l.Ok u) (k : FaultKey) : (l.finish k).Ok u :=
  h.map _ _ (fun r => by split <;> rfl) fun r hr => by
    split
    · exact ⟨hr.1, hr.2.1, hr.2.2.1, hr.2.2.2.1, fun _ => rfl⟩
    · exact hr

theorem FaultRecords.Ok.takeEvent {l : FaultRecords} {e : EventReports} (h : l.Ok e.uptime) (held : List FaultKey) :
    (l.takeEvent held e).Ok e.uptime := by
  unfold FaultRecords.takeEvent
  generalize e.reports = rs
  induction rs generalizing l with
  | nil => exact h
  | cons r rs ih => cases r <;> [exact ih (h.occur held _); exact ih (h.finish _)]

theorem FaultRecords.Ok.takeAll {l : FaultRecords} {u : Nat} (h : l.Ok u) (earlier : List FaultKey)
    {events : List EventReports} (le : ∀ e ∈ events, e.uptime ≤ u)
    (old : ∀ e ∈ events, ∀ r ∈ l.records, r.last ≤ e.uptime)
    (inOrder : events.Pairwise fun d e => d.uptime ≤ e.uptime) : (l.takeAll earlier events).Ok u := by
  induction events generalizing l earlier with
  | nil => exact h
  | cons e later ih =>
    have he : l.Ok e.uptime := ⟨h.1, h.2.1, fun r hr => (h.2.2 r hr).at_last (old e (by simp) r hr)⟩
    have hn := he.takeEvent (earlier ++ later.flatMap EventReports.keys)
    rw [List.pairwise_cons] at inOrder
    exact ih (hn.mono (le e (by simp))) _ (fun d hd => le d (by simp [hd]))
      (fun d hd r hr => (hn.2.2 r hr).2.2.2.1.trans (inOrder.1 d hd)) inOrder.2

theorem Together.Ok.after {b : Together} {u : Nat} (h : b.Ok u) : b.after.Ok u :=
  h.1.takeAll [] (fun e he => (h.2.1 e he).1) (fun e he => (h.2.1 e he).2) h.2.2

theorem FaultList.Ok.joined {l : FaultList} (h : l.Ok) (t : Moment) (rs : List Report) :
    (l.joined t ⟨l.uptime, rs⟩).Ok l.uptime := by
  obtain ⟨hc, -, hb, -⟩ := h
  unfold FaultList.joined
  split
  · refine ⟨hb.1, fun e he => ?_, ?_⟩
    · rcases List.mem_append.1 he with he | he
      · exact hb.2.1 e he
      · obtain rfl := List.mem_singleton.1 he
        exact ⟨le_rfl, fun r hr => (hb.1.2.2 r hr).2.2.2.1⟩
    · rw [List.pairwise_append]
      exact ⟨hb.2.2, by simp, fun d hd e he => by obtain rfl := List.mem_singleton.1 he; exact (hb.2.1 d hd).1⟩
  · refine ⟨hc, fun e he => ?_, by simp⟩
    obtain rfl := List.mem_singleton.1 he
    exact ⟨le_rfl, fun r hr => (hc.2.2 r hr).2.2.2.1⟩

/-- A report of whatever event keeps the fault list in order. -/
theorem FaultList.Ok.report {l : FaultList} (h : l.Ok) (t : Moment) (rs : List Report) : (l.report t rs).Ok := by
  unfold FaultList.report
  split
  · exact h
  · have hb := h.joined t rs
    exact ⟨hb.after, h.2.1, hb, rfl⟩

/-- A list in order stays so when it is what the next reports find. -/
theorem FaultList.Ok.settle {l : FaultList} (h : l.contents.Ok l.uptime) (u : l.uptime ≤ 16777215) (t : Moment) :
    (l.settle t).Ok := ⟨h, u, ⟨h, nofun, List.Pairwise.nil⟩, rfl⟩

end Sys2Proof.Machine
end

