-- ==== Sys2Proof/Laws/PerInstr.lean ====
section
/-! SUPPORT. What holds of each command as syntax: the header of a well-formed COMMAND frame is one a CAN controller
can receive (R181, R183). -/

namespace Sys2Proof.Laws.Frames

/-- The header of a well-formed COMMAND frame fits a CAN frame: 29 identifier bits at most, eight bytes at most. -/
def Statement (i : Instr) : Prop :=
  ∀ rx, Machine.commandHeader i = some rx → i.wf = true → rx.ident < 2 ^ 29 ∧ rx.length ≤ 8

/-- A well-formed header is in range. -/
theorem header_in_range {rx : RxHeader} (h : rx.wf = true) : rx.ident < 2 ^ 29 ∧ rx.length ≤ 8 := by
  simp only [RxHeader.wf, Bool.and_eq_true, decide_eq_true_eq] at h
  refine ⟨?_, h.2⟩
  split at h <;> omega

/-- A command that is no COMMAND frame. -/
theorem of_none {i : Instr} (h : Machine.commandHeader i = none) : Statement i := fun _ e => by simp [h] at e

/-- A COMMAND frame whose well-formedness is its header's. -/
theorem of_header {i : Instr} {rx : RxHeader} (h : Machine.commandHeader i = some rx) (w : i.wf = rx.wf) :
    Statement i := fun _ e k => by
  obtain rfl := Option.some.inj (h.symm.trans e)
  exact header_in_range (w ▸ k)

theorem powerOn (pins : ResetPins) : Statement (.powerOn pins) := of_none rfl
theorem supplyDip (pins : ResetPins) : Statement (.supplyDip pins) := of_none rfl
theorem external (pins : ResetPins) : Statement (.external pins) := of_none rfl
theorem demand (rx : RxHeader) (data : Vector Byte 8) : Statement (.demand rx data) := of_none rfl
theorem pulseTimerExpiry (src : NetSource) (c : Channel) : Statement (.pulseTimerExpiry src c) := of_none rfl
theorem lapse (src : NetSource) (c : Channel) : Statement (.lapse src c) := of_none rfl
theorem startGraceEnd : Statement .startGraceEnd := of_none rfl
theorem admission : Statement .admission := of_none rfl
theorem inrushTimerExpiry (c : Channel) : Statement (.inrushTimerExpiry c) := of_none rfl
theorem allowanceTimerExpiry (c : Channel) : Statement (.allowanceTimerExpiry c) := of_none rfl
theorem periodBoundary (c : Channel) : Statement (.periodBoundary c) := of_none rfl
theorem phaseTimerExpiry (p : Pattern) : Statement (.phaseTimerExpiry p) := of_none rfl
theorem scan (readings : ScanReadings) (order : List Delivery) : Statement (.scan readings order) := of_none rfl
theorem pwmMidpoint (c : Channel) (current : Int) : Statement (.pwmMidpoint c current) := of_none rfl
theorem offTimeWaitComplete (c : Channel) : Statement (.offTimeWaitComplete c) := of_none rfl
theorem fuseTick (c : Channel) : Statement (.fuseTick c) := of_none rfl
theorem retryDelayExpiry (c : Channel) : Statement (.retryDelayExpiry c) := of_none rfl
theorem stableRunExpiry (c : Channel) : Statement (.stableRunExpiry c) := of_none rfl
theorem feederFuseTick : Statement .feederFuseTick := of_none rfl
theorem floorExpiry (src : NetSource) : Statement (.floorExpiry src) := of_none rfl
theorem lineLevelChange (line : Line) (high : Bool) : Statement (.lineLevelChange line high) := of_none rfl
theorem debounceExpiry (line : Line) (floorFirst : Bool) : Statement (.debounceExpiry line floorFirst) := of_none rfl
theorem release (rx : RxHeader) (args : Vector Byte 7) : Statement (.release rx args) := of_header rfl rfl
theorem clearChannel (rx : RxHeader) (args : Vector Byte 7) : Statement (.clearChannel rx args) := of_header rfl rfl
theorem clearEmergency (rx : RxHeader) (args : Vector Byte 7) : Statement (.clearEmergency rx args) := of_header rfl rfl
theorem clearFaults (rx : RxHeader) (args : Vector Byte 7) : Statement (.clearFaults rx args) := of_header rfl rfl
theorem shedFloor (rx : RxHeader) (args : Vector Byte 7) : Statement (.shedFloor rx args) := of_header rfl rfl
theorem flashSync (rx : RxHeader) (args : Vector Byte 7) : Statement (.flashSync rx args) := of_header rfl rfl
theorem queryChannel (rx : RxHeader) (args : Vector Byte 7) : Statement (.queryChannel rx args) := of_header rfl rfl
theorem queryProtection (rx : RxHeader) (args : Vector Byte 7) : Statement (.queryProtection rx args) := of_header rfl rfl
theorem queryEntry (rx : RxHeader) (args : Vector Byte 7) : Statement (.queryEntry rx args) := of_header rfl rfl
theorem queryZone (rx : RxHeader) (args : Vector Byte 7) : Statement (.queryZone rx args) := of_header rfl rfl
theorem readFault (rx : RxHeader) (args : Vector Byte 7) : Statement (.readFault rx args) := of_header rfl rfl
theorem readLimitLog (rx : RxHeader) (args : Vector Byte 7) : Statement (.readLimitLog rx args) := of_header rfl rfl
theorem configRead (rx : RxHeader) (args : Vector Byte 7) : Statement (.configRead rx args) := of_header rfl rfl
theorem configWrite (rx : RxHeader) (args : Vector Byte 7) : Statement (.configWrite rx args) := of_header rfl rfl
theorem configStore (rx : RxHeader) (args : Vector Byte 7) : Statement (.configStore rx args) := of_header rfl rfl
theorem unknownCommand (rx : RxHeader) (code : UnknownCode) (args : Vector Byte 7) : Statement (.unknownCommand rx code args) := of_header rfl rfl
theorem storeCompletion (readBack : Option StoredImage) : Statement (.storeCompletion readBack) := of_none rfl
theorem statusDue (port : Port) : Statement (.statusDue port) := of_none rfl
theorem takeIntoTransmission (port : Port) : Statement (.takeIntoTransmission port) := of_none rfl
theorem frameSent (port : Port) : Statement (.frameSent port) := of_none rfl
theorem busOff (port : Port) : Statement (.busOff port) := of_none rfl
theorem linkReturn (port : Port) : Statement (.linkReturn port) := of_none rfl
theorem uptimeTick : Statement .uptimeTick := of_none rfl

end Sys2Proof.Laws.Frames
end

