-- ==== Sys2Proof/Laws/Protection.lean ====
section
/-! SUPPORT. What the protection unit's operations can do before an evaluation: they write the protection record of
one channel and the fault list, and nothing else. -/

namespace Sys2Proof.Machine

/-- t differs from s at most in the protection record of channel c and in the fault list, and keeps H. -/
structure ProtOnly (c : Channel) (s t : State) : Prop where
  frame : t = { s with chans := t.chans, faults := t.faults }
  others : ∀ d, d ≠ c → t.chan d = s.chan d
  own : t.chan c = { s.chan c with prot := (t.chan c).prot }
  heat : (t.chan c).prot.heat = (s.chan c).prot.heat

theorem ProtOnly.refl (c : Channel) (s : State) : ProtOnly c s s := ⟨rfl, fun _ _ => rfl, rfl, rfl⟩

theorem ProtOnly.trans {c : Channel} {s t u : State} (h : ProtOnly c s t) (k : ProtOnly c t u) : ProtOnly c s u where
  frame := by rw [k.frame, h.frame]
  others d hd := (k.others d hd).trans (h.others d hd)
  own := by rw [k.own, h.own]
  heat := k.heat.trans h.heat

theorem ProtOnly.ite {c : Channel} {s a b : State} {P : Prop} [Decidable P] (ha : ProtOnly c s a)
    (hb : ProtOnly c s b) : ProtOnly c s (if P then a else b) := by split <;> assumption

theorem protOnly_withProt {c : Channel} {s : State} {f : ProtRecord → ProtRecord}
    (h : (f (s.chan c).prot).heat = (s.chan c).prot.heat) : ProtOnly c s (s.withProt c f) where
  frame := rfl
  others _ hd := State.chan_setChan_ne _ _ hd
  own := by simp [State.withProt]
  heat := by simpa [State.withProt] using h

theorem protOnly_report (c : Channel) (s : State) (rs : List Report) : ProtOnly c s (s.report rs) :=
  ⟨rfl, fun _ _ => rfl, rfl, rfl⟩

theorem protOnly_occur (c : Channel) (s : State) (k : FaultKey) : ProtOnly c s (s.occur k) :=
  ⟨rfl, fun _ _ => rfl, rfl, rfl⟩

theorem protOnly_finish (c : Channel) (s : State) (k : FaultKey) : ProtOnly c s (s.finish k) :=
  ⟨rfl, fun _ _ => rfl, rfl, rfl⟩

theorem protOnly_trip (s : State) (c : Channel) (k : TripKind) : ProtOnly c s (s.trip c k) :=
  .ite ((protOnly_withProt rfl).trans (protOnly_occur c _ _))
    ((protOnly_withProt rfl).trans (protOnly_report c _ _))

theorem protOnly_exitTrip (s : State) (c : Channel) : ProtOnly c s (s.exitTrip c) := by
  unfold State.exitTrip; exact protOnly_withProt rfl

/-- The comparison of a fuse tick (R97). -/
theorem protOnly_compareLevels (s : State) (c : Channel) : ProtOnly c s (s.compareLevels c) := by
  unfold State.compareLevels
  simp only
  split
  · exact .ite (protOnly_trip s c _) (.ite (protOnly_withProt rfl) (.refl c s))
  · exact .ite (protOnly_trip s c _) (.ite (protOnly_withProt rfl) (.refl c s))
  · exact .ite (protOnly_exitTrip s c) (.refl c s)
  · exact .ite (protOnly_exitTrip s c) (.refl c s)
  · exact .refl c s
  · exact .refl c s

/-- The on-state open-load check (R112). -/
theorem protOnly_checkOnState (s : State) (c : Channel) (n : Nat) : ProtOnly c s (s.checkOnState c n) := by
  have e (t : State) : ProtOnly c t (t.endOpenLoadOn c) :=
    .ite ((protOnly_withProt rfl).trans (protOnly_finish c _ _)) (.refl c t)
  unfold State.checkOnState
  simp only
  exact .ite
    (.ite (e s)
      (.ite
        (.ite (((protOnly_withProt rfl).trans (protOnly_withProt rfl)).trans (protOnly_occur c _ _))
          (protOnly_withProt rfl))
        ((protOnly_withProt rfl).trans (e _))))
    (.refl c s)

/-- A check sample of an OFF channel (R114, R115). -/
theorem protOnly_checkSample (s : State) (c : Channel) (v w : Nat) : ProtOnly c s (s.checkSample c v w) := by
  have e (t : State) (a b : Bool) : ProtOnly c t (t.endOffState c a b) := by
    have k (f : ProtRecord → ProtRecord) (key) (h : ∀ r, (f r).heat = r.heat) (u : State) :
        ProtOnly c u ((u.withProt c f).finish key) := (protOnly_withProt (h _)).trans (protOnly_finish c _ _)
    exact .trans (.ite (k (fun r => { r with openLoadOff := false }) _ (fun _ => rfl) t) (.refl c t))
      (.ite (k (fun r => { r with shortToSupply := false }) _ (fun _ => rfl) _) (.refl c _))
  unfold State.checkSample
  simp only
  generalize hn : countCheck _ _ = n
  have h : ProtOnly c s (s.withProt c fun r => { r with offCount := n }) := protOnly_withProt rfl
  revert h
  generalize (s.withProt c fun r => { r with offCount := n }) = t
  intro h
  refine (h.trans ?_).trans (e _ _ _)
  exact .ite
    (.ite (.ite (.refl c t) ((protOnly_withProt rfl).trans (protOnly_occur c _ _)))
      (.ite (.refl c t) ((protOnly_withProt rfl).trans (protOnly_occur c _ _))))
    (.refl c t)

/-- The delivery of an off-state sample (R74, R114). -/
theorem protOnly_deliverVoltage (s : State) (c : Channel) (b : Bool) (v w : Nat) :
    ProtOnly c s (s.deliverVoltage c b v w) := .ite (protOnly_checkSample s c v w) (.refl c s)

/-- The clearing of one channel (R110). -/
theorem protOnly_clearProtection (s : State) (c : Channel) : ProtOnly c s (s.clearProtection c) := by
  unfold State.clearProtection
  simp only
  split
  · exact ((protOnly_withProt rfl).trans (protOnly_withProt rfl)).trans (protOnly_finish c _ _)
  all_goals exact protOnly_withProt rfl

end Sys2Proof.Machine
end

