-- ==== Sys2Proof/Laws/Supply.lean ====
section
/-! SUPPORT. What a change of the supervisor hands to the arbitration unit: the evaluation of all channels that a changed
effective shed level or a changed hold causes, said once for every event that moves them. -/

namespace Sys2Proof.Machine

/-! ### What evaluations leave of the supervisor and the fault list -/

theorem evaluateAll_frame (s : State) :
    s.evaluateAll = { s with chans := s.evaluateAll.chans, queue := s.evaluateAll.queue, gens := s.evaluateAll.gens } :=
  (evaluateAll_evaluated s).1

@[simp] theorem evaluateAll_sup (s : State) : s.evaluateAll.sup = s.sup := by rw [evaluateAll_frame]
@[simp] theorem evaluateAll_faults (s : State) : s.evaluateAll.faults = s.faults := by rw [evaluateAll_frame]
@[simp] theorem evaluateAll_now (s : State) : s.evaluateAll.now = s.now := by rw [evaluateAll_frame]

@[simp] theorem evaluateLevel_sup (s before : State) : (s.evaluateLevel before).sup = s.sup := by
  unfold State.evaluateLevel; split <;> simp

@[simp] theorem evaluateLevel_faults (s before : State) : (s.evaluateLevel before).faults = s.faults := by
  unfold State.evaluateLevel; split <;> simp

/-! ### A changed level, a changed hold (R47, R148, R154) -/

theorem evaluateLevel_of_same {s before : State} (h : s.sup.level = before.sup.level) : s.evaluateLevel before = s :=
  if_pos h

theorem evaluateLevel_of_changed {s before : State} (h : s.sup.level ≠ before.sup.level) :
    s.EvaluatesTo (s.evaluateLevel before) allChannels := by
  unfold State.evaluateLevel
  rw [if_neg h]
  exact evaluateEach_evaluatesTo s allChannels

/-- The two evaluations of a zone sample are one: all channels where level or hold has changed, none otherwise (log 17). -/
theorem evaluateLevel_evaluateHold (s before : State) :
    (s.evaluateLevel before).evaluateHold before =
      if s.sup.level = before.sup.level ∧ s.sup.hold = before.sup.hold then s else s.evaluateAll := by
  unfold State.evaluateHold
  rw [evaluateLevel_sup]
  unfold State.evaluateLevel
  by_cases hl : s.sup.level = before.sup.level <;> by_cases hh : s.sup.hold = before.sup.hold <;>
    simp [hl, hh, evaluateAll_idem]

/-! ### The events that move them -/

/-- A changed level evaluates all channels; the event leaves supervisor and fault list as the evaluation found them. -/
theorem evaluateLevel_of_frame {u before : State} {now' : Moment}
    (h : u = { before with now := now', sup := u.sup, faults := u.faults }) :
    let t := u.evaluateLevel before
    (t.sup.level ≠ before.sup.level →
      ({ before with now := now', sup := t.sup, faults := t.faults } : State).EvaluatesTo t allChannels)
    ∧ (t.sup.level = before.sup.level → t = u) := by
  refine ⟨fun hl => ?_, fun hl => evaluateLevel_of_same (by simpa using hl)⟩
  rw [evaluateLevel_sup, evaluateLevel_faults, ← h]
  exact evaluateLevel_of_changed (by simpa using hl)

/-- The floor of a source replaced: all channels evaluated where L changes, none otherwise (R151, R152, R154). -/
theorem setFloor_evaluates (s : State) (src : NetSource) (f : Option Floor) :
    let t := s.setFloor src f
    (t.sup.level ≠ s.sup.level → ({ s with sup := t.sup } : State).EvaluatesTo t allChannels)
    ∧ (t.sup.level = s.sup.level → t = { s with sup := t.sup }) := by
  have h := evaluateLevel_of_frame (before := s) (now' := s.now)
    (u := ({ s with sup := { s.sup with floors := s.sup.floors.set src f } } : State).recompute) rfl
  refine ⟨fun hl => ?_, fun hl => ?_⟩
  · have e := h.1 hl
    rw [evaluateLevel_faults] at e
    exact e
  · have e := h.2 hl
    rw [State.setFloor, e]
    rfl

/-- A zone sample: all channels evaluated where L or the hold changes, none otherwise (R144 to R148, R154; log 17). -/
theorem deliverZone_evaluates (s : State) (volts : Nat) :
    let t := s.deliverZone volts
    (t.sup.level ≠ s.sup.level ∨ t.sup.hold ≠ s.sup.hold →
      ({ s with sup := t.sup, faults := t.faults } : State).EvaluatesTo t allChannels)
    ∧ (t.sup.level = s.sup.level → t.sup.hold = s.sup.hold → t = { s with sup := t.sup, faults := t.faults }) := by
  obtain ⟨u, hu, ht⟩ : ∃ u : State, u = { s with sup := u.sup, faults := u.faults }
      ∧ s.deliverZone volts = (u.evaluateLevel s).evaluateHold s := by
    refine ⟨_, ?_, rfl⟩
    rfl
  rw [ht, evaluateLevel_evaluateHold]
  have hs : ∀ p : Prop, [Decidable p] → (if p then u else u.evaluateAll).sup = u.sup := by intro p _; split <;> simp
  have hf : ∀ p : Prop, [Decidable p] → (if p then u else u.evaluateAll).faults = u.faults := by intro p _; split <;> simp
  dsimp only
  rw [hs, hf, ← hu]
  refine ⟨fun h => ?_, fun h1 h2 => if_pos ⟨h1, h2⟩⟩
  rw [if_neg (by tauto)]
  exact evaluateEach_evaluatesTo u allChannels

end Sys2Proof.Machine
end

