-- ==== Sys2Proof/Tests/Slice0.lean ====
section
/-! SUPPORT. The smoke test of WellFormed, small tests of single operations and single commands with results taken from
the spec's rules and worked examples, and for each statement with hypotheses a state and operands that meet them. -/

namespace Sys2Proof.Tests

open Sys2Proof Sys2Proof.Machine

/-! ### Helpers -/

/-- The part right after reset. -/
abbrev base : State := State.reset

/-- The header of a COMMAND frame of a source to zone address 0 (R182). -/
def cmdFrom : NetSource → RxHeader
  | .cab => ⟨.a, false, false, 0x310, 8⟩
  | .body => ⟨.a, false, false, 0x311, 8⟩
  | .drive => ⟨.b, false, false, 0x312, 8⟩
  | .service => ⟨.a, false, false, 0x313, 8⟩

/-- The header of a DEMAND frame of a source for a group (R182). -/
def demFrom (g : Nat) : NetSource → RxHeader
  | .cab => ⟨.a, false, false, 0x300 + g, 8⟩
  | .body => ⟨.a, false, false, 0x304 + g, 8⟩
  | .drive => ⟨.b, false, false, 0x308 + g, 8⟩
  | .service => ⟨.a, false, false, 0x30c + g, 8⟩

/-- Argument bytes 1 to 5 of a COMMAND frame. -/
def args (a b c d e : Nat) : Vector Byte 7 :=
  #v[BitVec.ofNat 8 a, BitVec.ofNat 8 b, BitVec.ofNat 8 c, BitVec.ofNat 8 d, BitVec.ofNat 8 e, 0, 0]

/-- The bytes of a DEMAND frame whose four items have code and class field a, c, e, g and argument b, d, f, h. -/
def items (a b c d e f g h : Nat) : Vector Byte 8 := packBytes [a, b, c, d, e, f, g, h]

/-- The state a command leaves. -/
def after (i : Instr) (s : State) : State :=
  match exec i s with
  | .next t => t
  | .fault _ => s
  | .refused _ => s

/-- A state with one channel's records changed. -/
def onChan (s : State) (c : Channel) (f : ChannelState → ChannelState) : State := s.setChan c (f (s.chan c))

/-- A state with SVC debounced ACTIVE. -/
def svcOn (s : State) : State := { s with lines := { s.lines with svc := ⟨true, true, none⟩ } }

/-- A state with the profile of a channel changed. -/
def onProfile (s : State) (c : Channel) (f : Profile → Profile) : State :=
  { s with cfg := { s.cfg with profile := s.cfg.profile.set c (f s.cfg.profile[c]) } }

/-- A channel with an entry of a source. -/
def withEntry (src : NetSource) (e : Machine.Entry) (x : ChannelState) : ChannelState :=
  { x with demand := { x.demand with list := { x.demand.list with net := x.demand.list.net.set src (some e) } } }

/-- A channel in an output state with a granted output handed over. -/
def running (out : OutState) (g : Granted) (k : SampleKind) (x : ChannelState) : ChannelState :=
  { x with
    sw := { x.sw with out := out, granted := g }
    sense := { x.sense with kind := k, valid := true, current := 2000 }
    prot := { x.prot with offWait := .cleared } }

/-- The last REPLY queued on a port, as numbers. -/
def lastReply (p : PortRecord) : List Nat :=
  match p.replies.getLast? with
  | some r => r.data.toList.map BitVec.toNat
  | none => []

/-- Pins at the end of a reset: all low but EMG. -/
def pinsHigh : ResetPins := ⟨1, #v[true, false, false, false], true, false⟩

/-! ### WellFormed: an ill-formed term for each check -/

theorem test_wf_standard_ident_refused : (Instr.release ⟨.a, false, false, 2048, 8⟩ (args 0 0 0 0 0)).wf = false := by
  decide
theorem test_wf_extended_ident_refused :
    (Instr.configStore ⟨.a, true, false, 2 ^ 29, 8⟩ (args 0 0 0 0 0)).wf = false := by decide
theorem test_wf_length_refused : (Instr.demand ⟨.a, false, false, 0x300, 9⟩ (items 0 0 0 0 0 0 0 0)).wf = false := by
  decide
theorem test_wf_order_refused :
    (Instr.scan ⟨0, 0, Vector.replicate 16 0, Vector.replicate 16 0⟩ [.zone, .channel 3, .zone]).wf = false := by decide
theorem test_wf_value_refused :
    (Instr.storeCompletion (some { WorkingConfig.default.toImage with check := 65536 })).wf = false := by decide
theorem test_wf_mark_refused :
    (Instr.storeCompletion (some { WorkingConfig.default.toImage with spoiled := true })).wf = false := by decide
theorem test_wf_frame_accepted : (Instr.release (cmdFrom .drive) (args 0 0 0 0 0)).wf = true := by decide
theorem test_wf_read_back_accepted :
    (Instr.storeCompletion (some WorkingConfig.default.toImage)).wf = true := by decide

/-! ### Worked examples of single operations -/

/-- 01 section 1.14. -/
theorem test_check_word_default : WorkingConfig.default.checkWord = 7456 := by decide
/-- 01 section 1.14, the session of 1.13. -/
theorem test_check_word_session :
    (onProfile base 5 fun p => { p with kind := 2, nominal := 150, warm := 8000, trip := 9000, pwmAllowed := 1 }).cfg.checkWord
      = 962 := by decide
/-- 05 R83, the table. -/
theorem test_current_ratio :
    [currentRatio 2000 100, currentRatio 1250 100, currentRatio 1266 100, currentRatio 1265 100, currentRatio 6000 10]
      = [128, 80, 81, 80, 1023] := by decide
/-- 05 section 5.13, the first five ticks. -/
theorem test_heat_twice_nominal :
    [heatStep 10 16384 0, heatStep 10 16384 16384, heatStep 10 16384 32752, heatStep 10 16384 49105,
      heatStep 10 16384 65442] = [16384, 32752, 49105, 65442, 81763] := by decide
/-- 05 section 5.16, ticks 2, 3 and 7. -/
theorem test_heat_saturated :
    [heatStep 10 1046529 1046529, heatStep 10 1046529 2092036, heatStep 10 1046529 6263864]
      = [2092036, 3136522, 7304276] := by decide
/-- 05 section 5.17, ticks 3 and 4. -/
theorem test_heat_feeder : [heatStep 14 5776 11552, heatStep 14 5776 17328] = [17328, 23103] := by decide
/-- 05 R82, the table: on-times. -/
theorem test_on_times :
    [onTimeOf 50 300, onTimeOf 50 20, onTimeOf 50 30, onTimeOf 50 999, onTimeOf 100 333, onTimeOf 20 875,
      onTimeOf 20 925, onTimeOf 20000 1] = [15, 1, 2, 50, 33, 18, 19, 20] := by decide
/-- 06 section 6.12, columns outside and inside the allowance. -/
theorem test_short_test :
    [shortTest false false (currentRatio 3999 50) 512, shortTest false false (currentRatio 4000 50) 512,
      shortTest false true (currentRatio 6000 300) 512, shortTest true false (currentRatio 5999 50) 512,
      shortTest true true (currentRatio 6000 50) 512, shortTest true false (currentRatio 1598 10) 512,
      shortTest true false (currentRatio 1599 10) 512] = [false, true, true, false, false, false, true] := by decide

/-- A demand list with entries of CAB and BODY of class DUTY. -/
def tie (cab body : EntryCommand) : DemandList :=
  { DemandList.empty with net := ⟨some ⟨.duty, cab, some 9⟩, some ⟨.duty, body, some 9⟩, none, none⟩ }

/-- 03 section 3.10, rows 1 to 4. -/
theorem test_ties :
    [(tie (.ask .on) (.ask .on)).winner, (tie (.ask (.dim 400)) (.ask (.flash 1))).winner,
      (tie (.ask (.dim 1000)) (.ask .on)).winner, (tie (.ask .on) (.pulse 100 (.running 5))).winner].map
        (Option.map Winner.source) = [some (.net .cab), some (.net .body), some (.net .body), some (.net .cab)] := by
  decide
/-- 03 section 3.10, the row of a SPENT pulse beside a LINE entry. -/
theorem test_spent_is_no_candidate :
    (({ DemandList.empty with
        net := ⟨none, some ⟨.duty, .pulse 100 .spent, some 9⟩, none, none⟩
        line := some ⟨.safety, .ask (.flash 2), none⟩ } : DemandList).winner.map Winner.source)
      = some .line := by decide

/-- The limiter inputs of 03 section 3.11. -/
def fan (p : ProtState) (latch hold : Bool) (level pwm : Nat) : LimitInputs :=
  ⟨p, latch, hold, level, some .duty, { Profile.default with shedClass := 2, derate := 150, pwmAllowed := pwm }⟩

/-- 03 section 3.11, all nine rows. -/
theorem test_one_winner_through_the_chain :
    [limitChain (fan .ready false false 0 1) (.dim 800), limitChain (fan .warm false false 0 1) (.dim 800),
      limitChain (fan .warm false false 0 0) (.dim 800), limitChain (fan .ready false false 1 1) (.dim 800),
      limitChain (fan .ready false false 2 1) (.dim 800), limitChain (fan .warm false true 2 1) (.dim 800),
      limitChain (fan .ready true true 2 1) (.dim 800), limitChain (fan .trippedOverload true false 0 1) (.dim 800),
      limitChain (fan (.lockout .short) false false 3 1) (.dim 800)]
    = [⟨.dim 800, CauseSet.empty⟩, ⟨.dim 600, CauseSet.empty.add .derate⟩, ⟨.off, CauseSet.empty⟩,
      ⟨.dim 800, CauseSet.empty⟩, ⟨.off, CauseSet.empty.add .shed⟩, ⟨.off, CauseSet.empty.add .overvoltage⟩,
      ⟨.off, CauseSet.empty.add .emergency⟩, ⟨.off, CauseSet.empty.add .protect⟩,
      ⟨.off, CauseSet.empty.add .lockout⟩] := by decide

/-- A list of sixteen ACTIVE records (10 section 10.10). -/
def fullList : FaultList :=
  ⟨allChannels.map fun c => ⟨.openLoadOn c, 5, 5, 1, true⟩, false, 9, 0, ⟨0, ⟨[], false⟩, []⟩⟩

/-- The same with one PASSIVE record, at index 3. -/
def onePassive : FaultList := fullList.finish 1 (.openLoadOn 3)

/-- 10 R173: no PASSIVE record, so the occurrence is dropped and the overflow flag set. -/
theorem test_fault_dropped : (fullList.occur 1 .storeFailed).contents = ⟨fullList.records, true⟩ := by decide
/-- 10 R173: the oldest PASSIVE record makes room. -/
theorem test_fault_evicts :
    ((onePassive.finish 1 (.openLoadOn 1)).occur 2 .emergency).contents
      = ⟨onePassive.records.eraseIdx 1 ++ [⟨.emergency, 9, 9, 1, true⟩], false⟩ := by decide
/-- 10 R175, row 1: of two new occurrences that fall together the first is stored and the second dropped, also where the
first is of an event cause; at different moments the second removes the record of the first (R173). -/
theorem test_new_occurrences_together :
    let m := onePassive.occur 2 .storeFailed
    (m.occur 2 .emergency).contents = ⟨m.records, true⟩
      ∧ (m.occur 3 .emergency).contents = ⟨m.records.dropLast ++ [⟨.emergency, 9, 9, 1, true⟩], false⟩ := by decide
/-- 10 R175, R173: with room for one in a list of ACTIVE records, the second new occurrence removes the record of an event
taken first, and is dropped behind a condition. -/
theorem test_new_occurrences_last_place :
    let l : FaultList := { fullList with records := fullList.records.tail }
    ((l.occur 2 .storeFailed).occur 2 .emergency).contents = ⟨l.records ++ [⟨.emergency, 9, 9, 1, true⟩], false⟩
      ∧ ((l.occur 2 .emergency).occur 2 .storeFailed).contents = ⟨l.records ++ [⟨.emergency, 9, 9, 1, true⟩], true⟩ := by
  decide
/-- 10 R175, last sentence: the count keeps its record, in its place, in either order. -/
theorem test_count_together :
    let m := (onePassive.occur 2 .emergency).occur 2 (.openLoadOn 3)
    m.contents = ((onePassive.occur 2 (.openLoadOn 3)).occur 2 .emergency).contents
      ∧ m.records[3]? = some ⟨.openLoadOn 3, 5, 9, 2, true⟩ ∧ m.overflow = true := by decide
/-- 10 R171, R173: the reports of one event are taken one after the other. -/
theorem test_trip_and_lockout :
    (onePassive.report 2 [.occur (.shortTrip 7), .occur (.lockout 7)]).contents
      = ⟨onePassive.records.eraseIdx 3 ++ [⟨.lockout 7, 9, 9, 1, true⟩], false⟩ := by decide
/-- 01 R21: power while the pin is held gives POWER_ON, a dip while it is asserted SUPPLY_DIP. -/
theorem test_reset_kinds :
    ([⟨true, true, true⟩, ⟨true, false, true⟩, ⟨false, true, true⟩, ⟨false, false, true⟩] : List ResetCourse).map
      ResetCourse.kind = [.powerOn, .powerOn, .supplyDip, .external] := by decide

/-! ### Single commands -/

theorem test_step_idle : step base = .next { base with now := 1 } := rfl
theorem test_power_on_address : (after (.powerOn pinsHigh) base).zoneAddress = 1 := by decide
/-- R167: L0 reads ACTIVE at the load, so its debounce runs. -/
theorem test_power_on_debounce :
    (after (.powerOn pinsHigh) base).lines.conf[0] = ⟨true, false, some 0⟩ := by decide
/-- R94: the estimate starts at the warm level, 4,194,304 on the default profile. -/
theorem test_supply_dip_heat : ((after (.supplyDip pinsHigh) base).chan 7).prot.heat = 4194304 := by decide
/-- R118: the retry delay of a kept short trip starts again; 1 s is the default. -/
theorem test_external_restarts_delay :
    ((after (.external pinsHigh) (onChan { base with now := 50 } 2 fun x =>
      { x with prot := { x.prot with state := .trippedShort .expired } })).chan 2).prot.state
      = .trippedShort (.running 10050) := by decide
/-- 02 section 2.15: CAB, DIM 75, class field 2 on channel 4: DUTY DIM 300, deadline 500 ms. -/
theorem test_demand_dim :
    ((after (.demand (demFrom 1 .cab) (items 20 75 0 0 0 0 0 0)) base).chan 4).demand.list.net.cab
      = some ⟨.duty, .ask (.dim 300), some 5000⟩ := by decide
/-- R183: BODY's identifier at port B is nobody's. -/
theorem test_demand_wrong_port_ignored :
    after (.demand { demFrom 1 .body with port := .b } (items 20 75 0 0 0 0 0 0)) base = base := by decide

/-- Channel 9 with a RUNNING pulse of BODY (02 section 2.16). -/
def pulsing : State := onChan base 9 (withEntry .body ⟨.duty, .pulse 500 (.running 5000), some 9000⟩)

theorem test_pulse_spent :
    ((after (.pulseTimerExpiry .body 9) pulsing).chan 9).demand.list.net.body
      = some ⟨.duty, .pulse 500 .spent, some 9000⟩ := by decide
theorem test_lapse_logs_and_flags :
    let t := after (.lapse .body 9) pulsing
    (t.lapsed.body, (t.chan 9).demand.list.net.body, (t.chan 9).arb.log.lapse) = (true, none, true) := by decide +kernel
/-- R38: an unclaimed channel with fallback ON runs COMFORT ON. -/
theorem test_grace_fallback :
    ((after .startGraceEnd (onProfile base 1 fun p => { p with fallback := 1 })).chan 1).demand.list.fallback
      = some ⟨.comfort, .ask .on, none⟩ := by decide +kernel

/-- Channel 3 waiting, the last admission at 0; the interval is 20 ms, the window 100 ms. -/
def waiting : State :=
  { onChan base 3 (running .waiting .steady .voltage) with queue := ⟨[], [3], some 0⟩ }

theorem test_admission :
    ((after .admission waiting).chan 3).sw.out = .inrush 1200 ∧ (after .admission waiting).queue = ⟨[], [], some 200⟩ := by
  decide

/-- R122, R125: with no admission yet a lamp that leaves OFF is admitted in the event in which it joins. -/
theorem test_hand_over_admits :
    (((base.handOver 3 .steady (some .duty)).chan 3).sw.out, (base.handOver 3 .steady (some .duty)).queue)
      = (.inrush 1000, ⟨[], [], some 0⟩) := by decide +kernel
/-- R124, R127: a winning class that rises to SAFETY moves the waiting channel to the front group. -/
theorem test_hand_over_regroups :
    (waiting.handOver 3 .steady (some .safety)).queue = ⟨[3], [], some 0⟩ := by decide +kernel

/-- Channel 3 in INRUSH until 1000, granted an output. -/
def inrush (g : Granted) : State := onChan base 3 (running (.inrush 1000) g .current)

/-- R133: on-time of PWM 300 at Tp 100 is 30. -/
theorem test_inrush_to_pwm :
    ((after (.inrushTimerExpiry 3) (inrush (.pwm 300))).chan 3).sw.out = .pwm 300 30 (.pwm 300) 1000 := by decide
theorem test_inrush_to_flash :
    (after (.inrushTimerExpiry 3) (inrush (.flash 2))).gens[(2 : Pattern)] = ⟨1, .running .on 2000 1000 9000⟩ := by decide
theorem test_allowance_ends :
    ((after (.allowanceTimerExpiry 3) (onChan (inrush .steady) 3 fun x =>
      { x with sw := { x.sw with allowance := some 1000 } })).chan 3).sw.allowance = none := by decide

/-- Channel 11 of 04 section 4.13 at its boundary of 110.0 ms: Tp 50, staged duty 20. -/
def fog (staged : Staged) (pending : Bool) : State :=
  onProfile (onChan base 11 (running (.pwm 300 15 staged 1050) staged.granted (.periodic 1050 15 pending))) 11 fun p =>
    { p with period := 50, pwmAllowed := 1 }

/-- 04 section 4.13: the effective on-time is 0 and there is no midpoint. -/
theorem test_boundary_short_on_time :
    ((after (.periodBoundary 11) (fog (.pwm 20) false)).chan 11).sense.kind = .periodic 1100 0 false := by decide +kernel
/-- 04 section 4.13: 999 gives an effective on-time of the whole period. -/
theorem test_boundary_long_on_time :
    ((after (.periodBoundary 11) (fog (.pwm 999) false)).chan 11).sense.kind = .periodic 1100 50 true := by decide +kernel
/-- R120, R133: the gate of a period from 105.0 ms with an on-time of 1.5 ms is on up to 106.5 ms. -/
theorem test_gate :
    [1050, 1064, 1065, 1099].map (fun t => ({ fog (.pwm 300) true with now := t } : State).gateOn 11)
      = [true, true, false, false] := by decide
/-- R133: a period of 5.0 ms with an on-time of 5.0 ms is on as a whole, up to the moment the boundary is taken. -/
theorem test_gate_whole_on :
    [1100, 1149, 1150, 1160].all (fun t => ({ after (.periodBoundary 11) (fog (.pwm 999) false) with now := t } : State).gateOn 11)
      = true := by decide +kernel
/-- 04 section 4.13: 1.23 A at the midpoint of an on-time of 1.5 ms. -/
theorem test_midpoint :
    let t := after (.pwmMidpoint 11 1230) (fog (.pwm 300) true)
    ((t.chan 11).sense.current, t.now) = (123, 1057) := by decide

/-- Channel 10 on pattern 0, in a phase that ends at 3400 (07 section 7.14). -/
def indicators (ph : Phase) : State :=
  { onChan base 10 (running (.flash 0) (.flash 0) (if ph = .on then .current else .voltage)) with
    gens := base.gens.set (0 : Pattern) ⟨1, .running ph 3400 3400 3300⟩ }

/-- 07 section 7.14: the OFF phase ends at 670 ms. -/
theorem test_phase_off :
    (after (.phaseTimerExpiry 0) (indicators .on)).gens[(0 : Pattern)].state = .running .off 6700 3400 3300 := by decide
/-- 07 section 7.14: FLASH_SYNC with mask 3 reports mask 1. -/
theorem test_flash_sync :
    lastReply (after (.flashSync (cmdFrom .cab) (args 3 0 0 0 0)) (indicators .off)).portA = [38, 0, 1, 0, 0, 0, 0, 0] := by
  decide

/-- What 04 section 4.12 measures at 41.0 ms on every channel: 64.10 A, 0.42 V, and 24.0 V at the supply. -/
def readings : ScanReadings := ⟨12000, 24000, Vector.replicate 16 64100, Vector.replicate 16 420⟩

/-- 04 section 4.12: 6000, saturated, within the allowance. -/
theorem test_scan_saturated :
    let t := after (.scan readings []) (onChan (inrush .steady) 3 fun x =>
      { x with sw := { x.sw with allowance := some 1000 } })
    ((t.chan 3).sense.current, (t.chan 3).sense.saturated, (t.chan 3).prot.state) = (6000, true, .ready) := by decide +kernel
/-- 04 section 4.12: 0.42 V reads 4; the feeder's 12.0 A reads 120. -/
theorem test_scan_voltage :
    let t := after (.scan readings [.zone]) base
    ((t.chan 0).sense.voltage, t.scan.supply, t.scan.feeder) = (4, 240, 120) := by decide +kernel
theorem test_off_wait :
    ((after (.offTimeWaitComplete 0) base).chan 0).prot.offWait = .complete := by decide

/-- Channel 6 RUNNING STEADY at 20.00 A on a nominal current of 10.0 A, with an estimate (05 section 5.13). -/
def heated (h : Nat) (p : ProtState) : State :=
  onProfile (onChan base 6 fun x =>
    let y := running (.steady .steady 0) .steady .current x
    { y with prot := { y.prot with heat := h, state := p } }) 6 fun p => { p with nominal := 100 }

/-- 05 section 5.13, tick 2. -/
theorem test_fuse_tick_heat : ((after (.fuseTick 6) (heated 16384 .ready)).chan 6).prot.heat = 32752 := by decide
/-- 05 section 5.13: at or above the trip level the comparison trips the channel. -/
theorem test_fuse_tick_trips :
    ((after (.fuseTick 6) (heated 6710272 .warm)).chan 6).prot.state = .trippedOverload := by decide
theorem test_retry_delay :
    ((after (.retryDelayExpiry 6) (heated 0 (.trippedShort (.running 40)))).chan 6).prot.state
      = .trippedShort .expired := by decide
theorem test_stable_run :
    ((after (.stableRunExpiry 6) (onChan base 6 fun x =>
      { x with prot := { x.prot with retries := 3, stableRun := some 0 } })).chan 6).prot.retries = 0 := by decide

/-- The supervisor with H_f, thermal level and the latest feeder reading given. -/
def feeder (h level reading : Nat) : State :=
  { base with sup := { base.sup with heat := h, thermalLevel := level, level := level }, scan := ⟨reading, 240, 0⟩ }

/-- 05 section 5.17, tick 4. -/
theorem test_feeder_heat : (after .feederFuseTick (feeder 17328 0 1200)).sup.heat = 23103 := by decide
/-- 08 section 8.11: the warm level is reached and level 1 is taken at once. -/
theorem test_feeder_level : (after .feederFuseTick (feeder 67108864 0 1200)).sup.level = 1 := by decide +kernel

/-- A part with a floor of CAB of level 2 that ends at 30000. -/
def floored : State :=
  { base with sup := { base.sup with floors := base.sup.floors.set .cab (some ⟨2, 30000⟩), level := 2 } }

theorem test_floor_expiry : (after (.floorExpiry .cab) floored).sup.level = 0 := by decide +kernel
/-- R151: a level above 3 is taken as 3, a duration of 0 as 1 (100 ms). -/
theorem test_shed_floor :
    lastReply (after (.shedFloor (cmdFrom .body) (args 9 0 0 0 0)) base).portA = [69, 0, 3, 1, 3, 0, 0, 0] := by decide +kernel

/-- L0 active-high on channel 12, command ON (09 section 9.8), its pin and debounce given. -/
def brake (r : LineRecord) : State :=
  { base with
    cfg := { base.cfg with line := base.cfg.line.set (0 : Fin 4) ⟨0, 20, 4096, 0⟩ }
    lines := { base.lines with conf := base.lines.conf.set (0 : Fin 4) r } }

/-- 09 section 9.8, time 0. -/
theorem test_line_high :
    (after (.lineLevelChange (.conf 0) true) (brake ⟨false, false, none⟩)).lines.conf[(0 : Fin 4)]
      = ⟨true, false, some 0⟩ := by decide
/-- 09 section 9.8, time 25: the LINE entry of channel 12. -/
theorem test_debounce :
    ((after (.debounceExpiry (.conf 0) false) (brake ⟨true, false, some 50⟩)).chan 12).demand.list.line
      = some ⟨.safety, .ask .on, none⟩ := by decide
theorem test_debounce_emergency :
    (after (.debounceExpiry .emg false) base).latch = true ∧ (after (.debounceExpiry .emg false) base).now = 100 := by
  decide +kernel

/-- DRIVE entries on channels 5, 7 and 10 (02 section 2.17). -/
def driven : State :=
  let e : Machine.Entry := ⟨.duty, .ask .off, some 5000⟩
  onChan (onChan (onChan base 5 (withEntry .drive e)) 7 (withEntry .drive e)) 10 (withEntry .drive e)

/-- 02 section 2.17, the first command: base 4, exponent 2, count 2. -/
theorem test_release_first :
    lastReply (after (.release (cmdFrom .drive) (args 1 6 2 0 0)) driven).portB = [97, 0, 4, 2, 2, 0, 0, 0] := by decide
/-- 02 section 2.17, the second command: base 8, exponent 3, count 1. -/
theorem test_release_second :
    lastReply (after (.release (cmdFrom .drive) (args 1 13 3 0 0)) driven).portB = [97, 0, 8, 3, 1, 0, 0, 0] := by decide

/-- Channel 6 in LOCKOUT with kind OVERLOAD, counter 3, 45.00 A (11 section 11.8). -/
def locked : State :=
  svcOn (onChan base 6 fun x =>
    { x with
      prot := { x.prot with state := .lockout .overload, retries := 3, heat := 4456000 }
      sense := { x.sense with current := 4500, valid := true } })

/-- 11 section 11.8, the reply at 4700: TRIPPED, OVERLOAD, counter 0. -/
theorem test_clear_channel :
    lastReply (after (.clearChannel (cmdFrom .service) (args 6 0 0 0 0)) locked).portA = [130, 0, 6, 2, 1, 0, 0, 0] := by
  decide
/-- 11 section 11.8, the reply at 4650: LOCKOUT, OVERLOAD, counter 3, heat 66, I 4500 (4500 = 17 * 256 + 148). -/
theorem test_query_protection :
    lastReply (after (.queryProtection (cmdFrom .service) (args 6 0 0 0 0)) locked).portA
      = [136, 0, 55, 66, 0, 8, 148, 17] := by decide
/-- R190: EMG debounced ACTIVE gives CONDITION with the latch and EMG. -/
theorem test_clear_emergency_condition :
    lastReply (after (.clearEmergency (cmdFrom .cab) (args 0 0 0 0 0))
      { base with latch := true, lines := { base.lines with emg := ⟨false, true, none⟩ } }).portA
      = [35, 3, 1, 1, 0, 0, 0, 0] := by decide
/-- R176: the PASSIVE CONFIG_DEFAULTED record goes: one removed, none left. -/
theorem test_clear_faults :
    lastReply (after (.clearFaults (cmdFrom .body) (args 0 0 0 0 0)) base).portA = [68, 0, 1, 0, 0, 0, 0, 0] := by decide
/-- R65: a RUNNING STEADY channel granted STEADY: state 3, mode 0, granted 1 and both duties 1000. -/
theorem test_query_channel :
    lastReply (after (.queryChannel (cmdFrom .cab) (args 6 0 0 0 0)) (onChan (heated 0 .ready) 6 fun x =>
      { x with arb := { x.arb with granted := .steady } })).portA = [39, 0, 19, 232, 3, 232, 3, 0] := by decide
/-- R43: one entry, DRIVE of class DUTY, OFF, 500 ms left. -/
theorem test_query_entry :
    lastReply (after (.queryEntry (cmdFrom .cab) (args 5 0 0 0 0)) driven).portA = [41, 0, 1, 19, 0, 0, 50, 0] := by decide
/-- R196: part 0 after reset: nothing read, L 0, POWER_ON. -/
theorem test_query_zone :
    lastReply (after (.queryZone (cmdFrom .drive) (args 0 0 0 0 0)) base).portB = [106, 0, 0, 0, 0, 0, 0, 0] := by decide
/-- R178: record 0 after reset: CONFIG_DEFAULTED, no channel, no source, PASSIVE, count 1, one record. -/
theorem test_read_fault :
    lastReply (after (.readFault (cmdFrom .cab) (args 0 0 0 0 0)) base).portA = [43, 0, 12, 255, 0, 0, 1, 1] := by decide
/-- 03 section 3.12: SHED and DERATE read, and the log emptied. -/
theorem test_read_limit_log :
    let t := after (.readLimitLog (cmdFrom .cab) (args 13 1 0 0 0)) (onChan base 13 fun x =>
      { x with arb := { x.arb with log := (CauseSet.empty.add .shed).add .derate } })
    (lastReply t.portA, (t.chan 13).arb.log) = ([44, 0, 13, 48, 0, 0, 0, 0], CauseSet.empty) := by decide
/-- R11: profile 5, field 4 is T, 6553 = 25 * 256 + 153. -/
theorem test_config_read :
    lastReply (after (.configRead (cmdFrom .cab) (args 0 5 4 0 0)) base).portA = [45, 0, 0, 5, 4, 153, 25, 0] := by decide
/-- 01 section 1.13: W 8000 is not below 6553, so RANGE with 4096. -/
theorem test_config_write_range :
    lastReply (after (.configWrite (cmdFrom .service) (args 0 5 3 64 31)) (svcOn base)).portA
      = [142, 1, 0, 5, 3, 0, 16, 0] := by decide
/-- 01 section 1.13: T 9000 is accepted (9000 = 35 * 256 + 40). -/
theorem test_config_write_ok :
    ((after (.configWrite (cmdFrom .service) (args 0 5 4 40 35)) (svcOn base)).profile 5).trip = 9000 := by decide
/-- R16: while the store reply waits to be placed, CONFIG_WRITE is answered BUSY, in store state IDLE too. -/
theorem test_config_write_busy_while_reply_held :
    (after (.configWrite (cmdFrom .service) (args 0 5 4 40 35))
      { svcOn base with heldStore := some (replyFrame 15 .service 0 []) }).heldCommand
      = some (replyFrame 14 .service 4 [0, 5, 4, 153, 25]) := by decide
/-- R47, R48: a write of the value held evaluates the channel, which adds the standing cause to an emptied log. -/
theorem test_config_rewrite_evaluates :
    let s := { onChan (svcOn base) 5 (withEntry .cab ⟨.comfort, .ask .on, some 5000⟩) with latch := true }
    ((after (.configWrite (cmdFrom .service) (args 0 5 4 153 25)) s).chan 5).arb.log = CauseSet.empty.add .emergency := by
  decide +kernel
theorem test_config_store :
    (after (.configStore (cmdFrom .service) (args 0 0 0 0 0)) (svcOn base)).image = ⟨WorkingConfig.default, 7456, false⟩ := by
  decide
theorem test_frame_code :
    let rx := cmdFrom .service
    commandOfFrame rx (items 2 6 0 0 0 0 0 0) = .clearChannel rx (args 6 0 0 0 0)
      ∧ commandOfFrame rx (items 15 0 0 0 0 0 0 0) = .configStore rx (args 0 0 0 0 0)
      ∧ commandOfFrame rx (items 255 0 0 0 0 0 0 0) = .unknownCommand rx ⟨255, by decide⟩ (args 0 0 0 0 0) := by decide
theorem test_unknown :
    lastReply (after (.unknownCommand (cmdFrom .cab) ⟨16, by decide⟩ (args 0 0 0 0 0)) base).portA
      = [32, 5, 16, 0, 0, 0, 0, 0] := by decide
/-- R16: a read-back that differs in one value: CONDITION, and the image fails its check. -/
theorem test_store_completion_fails :
    let s := { base with store := .storing 0, image := WorkingConfig.default.toImage }
    let t := after (.storeCompletion (some { s.image with check := 7457 })) s
    (lastReply t.portA, t.image.passes) = ([143, 3, 0, 0, 0, 0, 0, 0], false) := by decide
/-- R201: after reset every channel OFF, both ports ONLINE, one record. -/
theorem test_status :
    ((after (.statusDue .b) base).portB.status.map fun d => d.toList.map BitVec.toNat)
      = some [0, 0, 0, 0, 96, 1, 0, 0] := by decide

/-- Port A with a REPLY to CAB and a STATUS waiting. -/
def loaded : State :=
  { base with
    portA := { base.portA with
      replies := [⟨.cab, packBytes [32]⟩]
      status := some (packBytes [1]) } }

theorem test_reply_before_status :
    (after (.takeIntoTransmission .a) loaded).portA.sending = some (.reply ⟨.cab, packBytes [32]⟩) := by decide
/-- R182: at zone address 2 the base is 0x380, STATUS has 0x3A0 and REPLY 0x3A1. -/
theorem test_frames_on_bus :
    [TxFrame.onBus 2 (.status (packBytes [1])), TxFrame.onBus 2 (.reply ⟨.cab, packBytes [32]⟩)].map BusFrame.ident
      = [0x3a0, 0x3a1] := by decide
theorem test_frame_sent :
    (after (.frameSent .a) { base with portA := { base.portA with sending := some (.status (packBytes [1])) } }).portA
      = base.portA := by decide
theorem test_bus_off : (after (.busOff .a) loaded).portA = ⟨.offline 0, [], none, none, 0⟩ := by decide
theorem test_link_return :
    let t := after (.linkReturn .a) (after (.busOff .a) loaded)
    (t.portA.link, t.now) = (.online, 10000) := by decide
theorem test_uptime_held :
    (after .uptimeTick { base with faults := { base.faults with uptime := 16777215 } }).faults.uptime = 16777215 := by decide

/-! ### Witnesses: states and operands that meet the hypotheses of the statements, clause by clause -/

/-- A header and a source that a state takes a COMMAND from. -/
theorem takes_of {s : State} {rx : RxHeader} {src : NetSource}
    (h : (decide (s.commandSender rx = some src) && !s.discards src) = true) : s.Takes rx src := by
  simp only [Bool.and_eq_true, decide_eq_true_eq, Bool.not_eq_true'] at h
  exact h

/-- Every source can send a COMMAND to a part with SVC ACTIVE. -/
theorem witness_takes (src : NetSource) : (svcOn base).Takes (cmdFrom src) src := takes_of (by cases src <;> decide)

/-- SERVICE without SVC, and CAB, can send one too. -/
theorem witness_takes_base (src : NetSource) : base.Takes (cmdFrom src) src := takes_of (by cases src <;> decide)

theorem witness_fault_list : base.faults.Ok ∧ step base = .next { base with now := 1 } := by
  have h : base.faults.contents.Ok 0 := by
    refine ⟨by decide, by decide, fun r hr => ?_⟩
    obtain rfl : r = ⟨.configDefaulted, 0, 0, 1, false⟩ := by simpa [base, State.reset, FaultList.contents] using hr
    exact ⟨by decide, by decide, by decide, by decide, fun _ => rfl⟩
  exact ⟨⟨h, by decide, ⟨⟨by decide, by decide, nofun⟩, by decide, by decide⟩, by decide⟩, rfl⟩

theorem witness_configuration : base.ConfigOk := by unfold State.ConfigOk; decide +kernel

theorem witness_demands : base.DemandsOk := by
  intro c
  have h (d : Channel) : (base.chan d).demand = ⟨DemandList.empty, none, false⟩ := by revert d; decide
  have hl (d : Channel) : base.lineEntry d = none := by revert d; decide
  rw [hl, h]
  refine ⟨⟨fun src e => ?_, fun e => ?_, fun k => ?_⟩, fun k => ?_, rfl, fun a => ?_⟩
  · cases src <;> nofun
  · nofun
  · rfl
  · exact absurd rfl k
  · nofun

/-- Channels that are OFF, an empty queue and STOPPED patterns are in order. -/
theorem outputs_ok_of_off (s : State)
    (h : ∀ c, (s.chan c).sw.out = .off ∧ (s.chan c).sw.granted = .off ∧ (s.chan c).sw.allowance = none
      ∧ (s.chan c).sense.kind = .voltage)
    (q : s.queue.front = [] ∧ s.queue.back = []) (g : ∀ p : Pattern, s.gens[p] = ⟨0, .stopped⟩) : s.OutputsOk := by
  refine ⟨fun c => ?_, by simp [q.1, q.2], fun c => by simp [q.1, (h c).1], fun c => by simp [q.2, (h c).1],
    fun p => ?_, fun c k => absurd (h c).2.2.1 k, fun c => ?_⟩
  · simp [OutState.Fits, (h c).1, (h c).2.1]
  · have u : s.usersOf p = [] := List.filter_eq_nil_iff.2 fun c _ => by simp [State.uses, (h c).1]
    simp [g p, u]
  · simp [State.SenseFits, (h c).1, (h c).2.2.2]

theorem witness_outputs : base.OutputsOk := outputs_ok_of_off base (by decide) (by decide) (by decide)

theorem witness_settled : base.AllSettled := by unfold State.AllSettled State.Settled; decide +kernel

theorem witness_protection : base.ProtectionOk := by unfold State.ProtectionOk State.ProtOk heatMax; decide +kernel

theorem witness_supply : base.sup.Ok := by
  refine ⟨by decide, by decide, by decide, fun src f h => ?_, by decide⟩
  cases src <;> cases h

theorem witness_ports : base.PortsOk := by
  refine ⟨fun p src => ?_, fun p _ => ?_, fun r h => ?_⟩
  · cases p <;> cases src <;> decide
  · cases p <;> decide
  · rcases h with h | h <;> cases h

/-- Channel 0 in a protection state. -/
def inProt (p : ProtState) : State := onChan base 0 fun x => { x with prot := { x.prot with state := p } }

/-- Channel 0 asked ON by CAB in class COMFORT, and held OFF with a cause recorded. -/
def held (k : LimitCause) : State :=
  onChan base 0 fun x =>
    { withEntry .cab ⟨.comfort, .ask .on, some 5000⟩ x with
      arb := ⟨some ⟨.net .cab, .comfort, .ask .on⟩, .off, CauseSet.empty.add k, CauseSet.empty⟩
      sw := { x.sw with cls := some .comfort } }

theorem witness_held_by_protection :
    ∀ p ∈ [ProtState.trippedOverload, .trippedShort .expired, .lockout .short],
      (inProt p).AllSettled ∧ (inProt p).OutputsOk ∧ ((inProt p).chan 0).prot.state = p := by
  have k (p : ProtState) (h : (inProt p).AllSettled) :
      (inProt p).AllSettled ∧ (inProt p).OutputsOk ∧ ((inProt p).chan 0).prot.state = p := by
    refine ⟨h, outputs_ok_of_off _ (fun c => ?_) ⟨rfl, rfl⟩ (fun q => ?_), ?_⟩
    · unfold inProt onChan
      rw [State.chan_setChan]
      split
      · exact ⟨rfl, rfl, rfl, rfl⟩
      · clear h; revert c; decide
    · show base.gens[q] = _
      clear h; revert q; decide
    · simp [inProt, onChan]
  intro p hp
  refine k p ?_
  unfold State.AllSettled State.Settled
  simp only [List.mem_cons, List.not_mem_nil, or_false] at hp
  rcases hp with rfl | rfl | rfl <;> decide +kernel

theorem witness_held_by_latch :
    let s := { base with latch := true }
    s.AllSettled ∧ s.OutputsOk ∧ s.latch = true ∧ (s.profile 0).emergencyKeep ≠ 1 :=
  ⟨by unfold State.AllSettled State.Settled; decide +kernel,
    outputs_ok_of_off _ (by decide) (by decide) (by decide), by decide, by decide⟩

theorem witness_held_by_hold :
    let s := { held .overvoltage with sup := { base.sup with hold := true } }
    s.AllSettled ∧ s.OutputsOk ∧ (s.chan 0).arb.winner = some ⟨.net .cab, .comfort, .ask .on⟩ ∧ s.sup.hold = true :=
  ⟨by unfold State.AllSettled State.Settled; decide +kernel,
    outputs_ok_of_off _ (by decide) (by decide) (by decide), by decide, by decide⟩

theorem witness_held_by_shedding :
    let s := { held .shed with sup := { base.sup with level := 1, thermalLevel := 1 } }
    s.AllSettled ∧ s.OutputsOk ∧ (s.chan 0).arb.winner = some ⟨.net .cab, .comfort, .ask .on⟩
      ∧ 4 ≤ (s.profile 0).shedClass + s.sup.level :=
  ⟨by unfold State.AllSettled State.Settled; decide +kernel,
    outputs_ok_of_off _ (by decide) (by decide) (by decide), by decide, by decide⟩

/-- Channel 0 OFF for 20 ms, its count at 9, with or without the pull-up. -/
def waited (pull : Nat) : State :=
  onProfile (onChan base 0 fun x => { x with prot := { x.prot with offWait := .complete, offCount := 9 } }) 0 fun p =>
    { p with pullUp := pull }

theorem witness_gates :
    (base.chan 0).sw.out = .off ∧ ((inrush .steady).chan 3).sw.out = .inrush 1000
      ∧ ((onChan base 3 (running (.steady .steady 0) .steady .current)).chan 3).sw.out = .steady .steady 0
      ∧ ((fog (.pwm 300) true).chan 11).sw.out = .pwm 300 15 (.pwm 300) 1050
      ∧ (2 ≤ 15 ∧ 2 ≤ ((fog (.pwm 300) true).profile 11).period - 15)
      ∧ (((after (.periodBoundary 11) (fog (.pwm 20) false)).chan 11).sw.out = .pwm 20 1 (.pwm 20) 1100 ∧ 1 < 2)
      ∧ (((after (.periodBoundary 11) (fog (.pwm 999) false)).chan 11).sw.out = .pwm 999 50 (.pwm 999) 1100
        ∧ ((fog (.pwm 300) true).profile 11).period - 50 < 2)
      ∧ ((indicators .on).chan 10).sw.out = .flash 0 ∧ (indicators .on).gateOn 10 = true
      ∧ (indicators .off).gateOn 10 = false ∧ (waited 1).pullUpApplied 0 = true := by decide +kernel

theorem witness_winner :
    DemandList.empty.winner = none
      ∧ (tie (.ask .on) (.ask .on)).winner = some ⟨.net .cab, .duty, .ask .on⟩
      ∧ (tie (.ask .on) (.ask .on)).get (.net .body) = some ⟨.duty, .ask .on, some 9⟩ := by decide

theorem witness_limiter_steps :
    (∀ p ∈ [ProtState.trippedOverload, .trippedShort .expired, .lockout .short, .warm],
        (fan p true true 3 1).level ≤ 3 ∧ (fan p true true 3 1).prot = p ∧ Output.steady ≠ .off)
      ∧ ((fan .ready true true 3 1).latch = true ∧ (fan .ready true true 3 1).profile.emergencyKeep ≠ 1)
      ∧ ((fan .ready false true 3 1).hold = true ∧ (fan .ready false true 3 1).cls = some .duty)
      ∧ (4 - (fan .ready false false 2 1).level ≤ (fan .ready false false 2 1).profile.shedClass)
      ∧ ¬4 - (fan .ready false false 1 1).level ≤ (fan .ready false false 1 1).profile.shedClass := by decide

theorem witness_derate_and_conversion :
    ((fan .ready false false 0 1).prot ≠ .warm)
      ∧ ((fan .warm false false 0 1).prot = .warm ∧ (fan .warm false false 0 1).profile.pwmAllowed = 1)
      ∧ ((fan .warm false false 0 0).profile.pwmAllowed ≠ 1 ∧ 999 < 1000) := by decide

theorem witness_grant : (1 ≤ 1 ∧ 1 ≤ 999) ∧ (1 ≤ 999 ∧ 999 ≤ 999) := by decide

theorem witness_evaluation :
    ((held .shed).chan 0).demand.list.winner = some ⟨.net .cab, .comfort, .ask .on⟩
      ∧ (pulsing.chan 9).demand.list.winner = some ⟨.net .body, .duty, .pulse⟩
      ∧ ((base.chan 0).demand.list.winner = none ∧ (base.chan 0).sw.granted = .off ∧ (base.chan 0).sw.cls = none)
      ∧ ((onChan base 0 (withEntry .cab ⟨.comfort, .ask .on, some 5000⟩)).chan 0).sw.cls = none
      ∧ ((onChan base 0 fun x => { x with arb := { x.arb with log := CauseSet.empty.add .lapse } }).chan 0).arb.log.has .lapse
        = true := by decide

theorem witness_heat :
    16384 * 2 ^ 10 + 2 ^ 10 - 1 ≤ heatMax ∧ (heatMax < 65536 * 2 ^ 16 + 2 ^ 16 - 1 ∧ 16 ≤ 32 ∧ heatMax - 1 < heatMax)
      ∧ (6709248 < 6553 * 2 ^ 10 ∧ 6553 * 2 ^ 10 ≤ heatMax) := by decide

/-- A part whose image has start grace 0, and fallback ON on channel 1 alone, in store state IDLE. -/
def noGrace : State :=
  { base with
    image := { (onProfile base 1 fun p => { p with fallback := 1 }).cfg with
      zone := { Zone.default with startGrace := 0 } }.toImage }

theorem witness_resets :
    ({ base with store := .storing 0 } : State).store ≠ .idle
      ∧ ((inProt (.trippedShort .expired)).chan 0).prot.state = .trippedShort .expired
      ∧ (after (.external pinsHigh) base).cfg.zone.startGrace ≠ 0
      ∧ ((after (.powerOn pinsHigh) noGrace).cfg.zone.startGrace = 0
        ∧ ((after (.powerOn pinsHigh) noGrace).profile 1).fallback = 1
        ∧ ((after (.powerOn pinsHigh) noGrace).profile 0).fallback ≠ 1) := by decide +kernel

/-- A dip while the reset pin is asserted, and power while it is held (R21). -/
theorem witness_reset_kinds :
    step (base.endReset ⟨false, true, true⟩ pinsHigh) = exec (.supplyDip pinsHigh) base
      ∧ step (base.endReset ⟨true, false, true⟩ pinsHigh) = exec (.powerOn pinsHigh) base
      ∧ step (base.endReset ⟨false, false, true⟩ pinsHigh) = exec (.external pinsHigh) base := ⟨rfl, rfl, rfl⟩

/-- Port A with a REPLY to CAB queued, so that the next COMMAND of CAB is discarded. -/
theorem witness_frames :
    base.demandSender (cmdFrom .cab) = none ∧ base.commandSender (demFrom 3 .drive) = none
      ∧ commandHeader (.clearFaults (demFrom 3 .drive) (args 0 0 0 0 0)) = some (demFrom 3 .drive)
      ∧ loaded.commandSender (cmdFrom .cab) = some .cab ∧ loaded.discards .cab = true
      ∧ base.demandSender (demFrom 3 .drive) ≠ none
      ∧ (items 1 6 0 0 0 0 0 0)[0] = 1 ∧ (∀ k : Fin 7, (items 1 6 0 0 0 0 0 0)[k.val + 1] = (args 6 0 0 0 0)[k]) := by
  decide

/-- SERVICE behind an unsent REPLY, behind the held store reply, and behind both. -/
theorem witness_discards :
    (base.port .a).sending = none
      ∧ (loaded.port .a).replies = [⟨.cab, packBytes [32]⟩]
      ∧ ({ base with heldStore := some (replyFrame 15 .service 0 []) } : State).Takes (cmdFrom .service) .service
      ∧ ({ base with heldStore := some (replyFrame 15 .service 0 []), heldCommand := some (replyFrame 13 .service 0 []) } :
          State).discards .service = true :=
  ⟨by decide, by decide, takes_of (by decide), by decide⟩

theorem witness_replies :
    ({ base with heldStore := some (replyFrame 15 .service 0 []) } : State).heldStore ≠ none
      ∧ (base.heldStore = none ∧ (base.port .a).link = .online) ∧ ((after (.busOff .b) base).port .b).link ≠ .online := by
  decide

theorem witness_demand_frame :
    base.demandSender (demFrom 3 .drive) = some .drive ∧ base.demandSender (demFrom 0 .service) = some .service
      ∧ base.lines.svc.active = false
      ∧ ((demandItem (items 5 4 0 0 0 0 0 0) 0).code = .flash ∧ 3 < (demandItem (items 5 4 0 0 0 0 0 0) 0).argument)
      ∧ ((demandItem (items 5 3 0 0 0 0 0 0) 0).code = .flash ∧ ¬3 < (demandItem (items 5 3 0 0 0 0 0 0) 0).argument)
      ∧ base.graceStart ≠ none ∧ (base.chan 0).demand.claimed = false
      ∧ (pulsing.chan 9).demand.list.net.get .body = some ⟨.duty, .pulse 500 (.running 5000), some 9000⟩
      ∧ (∀ i : Fin 4, 0 ≠ groupChannel (base.demandGroup (demFrom 3 .drive)) i) := by
  decide

/-- The channels that hand-overs find in OFF: kind LAMP with a window, kind LED with one, and window 0. -/
theorem witness_hand_over_off :
    ((base.chan 3).sw.out = .off ∧ (base.profile 3).kind = 0 ∧ 0 < (base.profile 3).window
        ∧ 0 < base.cfg.zone.admissionInterval)
      ∧ ({ base with cfg := { base.cfg with zone := { base.cfg.zone with admissionInterval := 0 } } } :
          State).cfg.zone.admissionInterval = 0
      ∧ (((onProfile base 3 fun p => { p with kind := 1 }).profile 3).kind = 1
        ∧ 0 < ((onProfile base 3 fun p => { p with kind := 1 }).profile 3).window)
      ∧ ((onProfile base 3 fun p => { p with window := 0 }).profile 3).window = 0
      ∧ Granted.steady = Staged.granted .steady ∧ Granted.pwm 999 = Staged.granted (.pwm 999) := by decide

/-- Channels 5 and 3 waiting in the back group, 5 ahead. -/
def waitingPair : State :=
  { onChan waiting 5 (running .waiting .steady .voltage) with queue := ⟨[], [5, 3], some 0⟩ }

theorem witness_hand_over_moves :
    ((waiting.chan 3).sw.out = .waiting ∧ 3 ∈ waiting.queue.back
        ∧ (waitingPair.chan 3).sw.out = .waiting ∧ 3 ∉ waitingPair.queue.front)
      ∧ (((waiting.queue.without 3).withTail 3 (some .safety)).front ++ []).head? = (waiting.queue.front ++ waiting.queue.back).head?
      ∧ (((waitingPair.queue.without 3).withTail 3 (some .safety)).front ++ [5]).head?
        ≠ (waitingPair.queue.front ++ waitingPair.queue.back).head?
      ∧ ((inrush .steady).chan 3).sw.out = .inrush 1000
      ∧ ((heated 0 .ready).chan 6).sw.out = .steady .steady 0
      ∧ ((fog (.pwm 20) true).chan 11).sw.out = .pwm 300 15 (.pwm 20) 1050
      ∧ (((indicators .on).chan 10).sw.out = .flash 0
        ∧ (indicators .on).gens[(0 : Pattern)].state = .running .on 3400 3400 3300)
      ∧ ((indicators .off).gens[(0 : Pattern)].state = .running .off 3400 3400 3300
        ∧ ((indicators .off).profile 10).kind = 0 ∧ 0 < ((indicators .off).profile 10).window)
      ∧ (1 : Pattern) ≠ 0 := by decide

/-- An admission due, not due, and due with an interval of 0. -/
theorem witness_admission_tested :
    (waiting.queue.front ++ waiting.queue.back = [3] ∧ ¬0 + 10 * waiting.cfg.zone.admissionInterval ≤ waiting.now)
      ∧ 0 + 10 * waiting.cfg.zone.admissionInterval ≤ ({ waiting with now := 200 } : State).now
      ∧ (waitingPair.chan 5).sw.out = .waiting
      ∧ ({ waitingPair with cfg := { base.cfg with zone := { base.cfg.zone with admissionInterval := 0 } } } :
          State).cfg.zone.admissionInterval = 0 := by decide

theorem witness_demand_timers :
    (pulsing.chan 9).demand.list.net.get .body = some ⟨.duty, .pulse 500 (.running 5000), some 9000⟩
      ∧ base.graceStart = some 0 := by decide

theorem witness_grace :
    let s := onProfile base 1 fun p => { p with fallback := 1 }
    (s.graceStart = some 0 ∧ (s.chan 1).demand.claimed = false ∧ (s.chan 1).demand.list.hasNetwork = false
        ∧ (s.chan 1).demand.list.fallback = none ∧ (s.profile 1).fallback = 1)
      ∧ ¬(s.profile 0).fallback = 1 := by decide

theorem witness_switch_timers :
    (waiting.queue.head = some 3 ∧ waiting.queue.lastAdmission = some 0 ∧ 0 < waiting.cfg.zone.admissionInterval
        ∧ (waiting.chan 3).sw.out = .waiting)
      ∧ (((inrush .steady).chan 3).sw.out = .inrush 1000 ∧ ((inrush .steady).chan 3).sw.granted = .steady)
      ∧ ((inrush (.pwm 1)).chan 3).sw.granted = .pwm 1 ∧ ((inrush (.flash 3)).chan 3).sw.granted = .flash 3
      ∧ ((fog (.pwm 999) true).chan 11).sw.out = .pwm 300 15 (.pwm 999) 1050
      ∧ ((heated 0 .ready).chan 6).sw.out = .steady .steady 0
      ∧ (indicators .on).gens[(0 : Pattern)].state = .running .on 3400 3400 3300
      ∧ (indicators .off).gens[(0 : Pattern)].state = .running .off 3400 3400 3300 := by decide

theorem witness_flash_sync :
    (indicators .off).Takes (cmdFrom .cab) .cab ∧ 15 < (args 16 0 0 0 0)[0].toNat ∧ (args 15 0 0 0 0)[0].toNat ≤ 15
      ∧ ((indicators .off).chan 10).sw.out = .flash 0 ∧ (indicators .off).gens[(0 : Pattern)].state ≠ .stopped
      ∧ ((indicators .off).profile 10).queueUsing = true ∧ (args 14 0 0 0 0)[0].toNat.testBit 0 = false :=
  ⟨takes_of (by decide), by decide⟩

theorem witness_midpoint :
    (fog (.pwm 300) true).OutputsOk ∧ ((fog (.pwm 300) true).chan 11).sense.kind = .periodic 1050 15 true := by
  refine ⟨⟨fun c => ?_, by decide, by decide, by decide, by decide, by decide, fun c => ?_⟩, by decide⟩
  · fin_cases c <;> exact rfl
  · fin_cases c <;> first | exact rfl | exact ⟨true, rfl⟩

theorem witness_fuse_tick :
    (((heated 6710272 .warm).chan 6).prot.state = .warm
        ∧ ((heated 6710272 .warm).profile 6).trip * 2 ^ 10 ≤ ((heated 6710272 .warm).chan 6).prot.heat
        ∧ ((heated 6710272 .warm).chan 6).prot.retries < ((heated 6710272 .warm).profile 6).retryLimit)
      ∧ ((onProfile (heated 6710272 .ready) 6 fun p => { p with retryLimit := 0 }).profile 6).retryLimit
        ≤ ((heated 6710272 .ready).chan 6).prot.retries
      ∧ (((heated 2097151 .trippedOverload).chan 6).prot.state = .trippedOverload
        ∧ ((heated 2097151 .trippedOverload).chan 6).prot.heat < 4096 * 2 ^ 9)
      ∧ (((heated 6710271 (.trippedShort .expired)).chan 6).prot.state = .trippedShort .expired
        ∧ ((heated 6710271 (.trippedShort .expired)).chan 6).prot.heat < 6553 * 2 ^ 10)
      ∧ (((heated 4194304 .ready).chan 6).prot.state = .ready ∧ 4096 * 2 ^ 10 ≤ ((heated 4194304 .ready).chan 6).prot.heat)
      ∧ (((heated 3670015 .warm).chan 6).prot.state = .warm
        ∧ ((heated 3670015 .warm).chan 6).prot.heat < 7 * 4096 * 2 ^ 10 / 8)
      ∧ ((heated 0 (.lockout .short)).chan 6).prot.state = .lockout .short := by decide

theorem witness_timers :
    ((onChan base 6 fun x => { x with sw := { x.sw with allowance := some 1000 } }).chan 6).sw.allowance = some 1000
      ∧ (base.chan 0).prot.offWait = .since 0
      ∧ ((heated 0 (.trippedShort (.running 40))).chan 6).prot.state = .trippedShort (.running 40)
      ∧ ((onChan base 6 fun x => { x with prot := { x.prot with stableRun := some 0 } }).chan 6).prot.stableRun = some 0 := by
  decide

theorem witness_short_test :
    (((heated 0 .ready).chan 6).prot.state = .ready ∧ ((heated 0 .ready).chan 6).sw.allowance = none
        ∧ ((heated 0 .ready).profile 6).shortRatio ≤ min 1023 (64 * 6000 / (10 * 50)))
      ∧ ((heated 0 .ready).chan 6).prot.retries < ((heated 0 .ready).profile 6).retryLimit
      ∧ ((heated 0 .trippedOverload).chan 6).prot.state = .trippedOverload
      ∧ ¬((heated 0 .ready).profile 6).shortRatio ≤ min 1023 (64 * 3999 / (10 * 50)) := by decide

/-- Channel 6 RUNNING STEADY without an allowance, with an open-load threshold, a count and the flag. -/
def openLoaded (threshold n : Nat) (flag : Bool) : State :=
  onProfile (onChan (heated 0 .ready) 6 fun x => { x with prot := { x.prot with onCount := n, openLoadOn := flag } }) 6
    fun p => { p with openLoad := threshold }

/-- 06 R112: the fiftieth sample below the threshold begins OPEN_LOAD_ON; the next at the threshold ends it. -/
theorem test_open_load_on :
    let t := (openLoaded 20 49 false).deliverCurrent 6 19 false
    ((t.chan 6).prot.openLoadOn, ((t.deliverCurrent 6 20 false).chan 6).prot.openLoadOn,
      ((t.deliverCurrent 6 20 false).chan 6).prot.onCount) = (true, false, 0) := by decide +kernel

theorem witness_on_state :
    (((openLoaded 20 49 false).chan 6).prot.state = .ready ∧ ((openLoaded 20 49 false).chan 6).sw.allowance = none
        ∧ ((openLoaded 20 49 false).chan 6).sw.out = .steady .steady 0
        ∧ ¬((openLoaded 20 49 false).profile 6).shortRatio ≤ min 1023 (64 * 20 / (10 * 100)))
      ∧ (19 < ((openLoaded 20 49 false).profile 6).openLoad ∧ min 50 (49 + 1) = 50 ∧ min 50 (48 + 1) < 50)
      ∧ ((openLoaded 20 49 false).profile 6).openLoad ≤ 20 ∧ ((openLoaded 0 49 true).profile 6).openLoad = 0
      ∧ (((inrush .steady).chan 3).prot.state = .ready ∧ ((inrush .steady).chan 3).sw.out = .inrush 1000) := by decide

theorem witness_off_state :
    (((waited 1).chan 0).prot.offWait = .complete ∧ ((waited 1).profile 0).pullUp = 1 ∧ 100 ≤ 100 ∧ 100 ≤ 2 * 50)
      ∧ (((waited 0).profile 0).pullUp ≠ 1 ∧ 8 * 100 ≤ 10 * 80)
      ∧ (((onChan (waited 1) 0 fun x => { x with prot := { x.prot with openLoadOff := true } }).chan 0).prot.openLoadOff
          = true ∧ ¬100 ≤ 2 * 49)
      ∧ (base.chan 0).prot.offWait ≠ .complete := by decide

theorem witness_feeder :
    (((feeder 67108864 0 0).sup.thermalLevel = 0 ∧ 4096 * 2 ^ 14 ≤ (feeder 67108864 0 0).sup.heat)
      ∧ ((feeder 67108864 2 0).sup.thermalLevel = 2
        ∧ 20000 ≤ ({ feeder 67108864 2 0 with now := 20000 } : State).now - (feeder 67108864 2 0).sup.dwellStart)
      ∧ ((feeder 50331647 1 0).sup.thermalLevel = 1 ∧ (feeder 50331647 1 0).sup.heat < 3 * 4096 * 2 ^ 14 / 4)
      ∧ 50000 ≤ ({ feeder 50331647 1 0 with now := 50000 } : State).now - (feeder 50331647 1 0).sup.dwellStart) := by decide

theorem witness_floors :
    floored.sup.floors.get .cab = some ⟨2, 30000⟩ ∧ (args 0 0 0 0 0)[0].toNat = 0 ∧ 1 ≤ (args 1 0 0 0 0)[0].toNat
      ∧ base.lines.svc.active = false ∧ (svcOn base).lines.svc.active = true
      ∧ (after (.floorExpiry .cab) floored).sup.level ≠ floored.sup.level := by decide +kernel

/-- A part at 5 s whose low run 1, recovery run, high and release runs have lasted long enough, at voltage level 1. -/
def sagging : State :=
  { base with
    now := 50000
    sup := { base.sup with
      voltageLevel := 1, level := 1, low := ⟨some 45000, none, none⟩, recovery := ⟨some 0, none, none⟩,
      high := some 49980, release := some 49000 } }

theorem witness_zone_sample :
    sagging.ConfigOk
      ∧ (sagging.deliverZone 229).sup.low.one = some 45000
      ∧ (sagging.deliverZone 235).sup.recovery.one = some 0
      ∧ ((sagging.deliverZone 340).sup.high = some 49980 ∧ (sagging.deliverZone 319).sup.release = some 49000)
      ∧ ({ sagging with sup := { sagging.sup with voltageLevel := 0 } } : State).sup.voltageLevel
        < (({ sagging with sup := { sagging.sup with voltageLevel := 0 } } : State).deliverZone 229).sup.voltageLevel
      ∧ (sagging.deliverZone 235).sup.voltageLevel < sagging.sup.voltageLevel
      ∧ (sagging.deliverZone 235).sup.level ≠ sagging.sup.level
      ∧ (sagging.deliverZone 340).sup.hold ≠ sagging.sup.hold := by
  unfold State.ConfigOk; decide +kernel

theorem witness_line_level :
    ((brake ⟨false, false, none⟩).line (.conf 0)).high ≠ true
      ∧ (brake ⟨false, false, none⟩).debounceLength (.conf 0) ≠ 0
      ∧ (({ base with cfg := { base.cfg with line := base.cfg.line.set (0 : Fin 4) ⟨0, 0, 4096, 0⟩ } } : State).cfg.line[
        (0 : Fin 4)]).debounce = 0
      ∧ ((brake ⟨true, false, some 0⟩).line (.conf 0)).high = true := by decide

theorem witness_debounce :
    ((brake ⟨true, false, some 50⟩).line (.conf 0)).debounce = some 50
      ∧ ((brake ⟨true, false, some 50⟩).cfg.line[(0 : Fin 4)]).mask.testBit 12 = true
      ∧ ((base.line .emg).debounce = some 0 ∧ base.raw .emg = true ∧ base.latch = false)
      ∧ (({ base with latch := true } : State).line .emg).debounce = some 0
      ∧ (({ base with lines := { base.lines with svc := ⟨true, false, some 0⟩ } } : State).line .svc).debounce = some 0
      ∧ (({ base with lines := { base.lines with svc := ⟨false, true, some 0⟩ } } : State).line .svc).debounce = some 0
      ∧ ({ base with sup := { base.sup with floors := base.sup.floors.set .service (some ⟨2, 30000⟩) } } :
          State).sup.floors.service ≠ none
      ∧ ((onChan base 4 (withEntry .service ⟨.force, .ask .on, some 5000⟩)).chan 4).demand.list.net.service ≠ none := by
  decide

theorem witness_line_entry :
    (∀ i : Fin 4, base.cfg.line[i].command ≤ 4) ∧ (∀ i : Fin 4, base.lines.conf[i].active = false)
      ∧ ((brake ⟨true, true, none⟩).lines.conf[(0 : Fin 4)].active = true
        ∧ (brake ⟨true, true, none⟩).cfg.line[(0 : Fin 4)].command = 0)
      ∧ ({ brake ⟨true, true, none⟩ with
          cfg := { base.cfg with line := base.cfg.line.set (0 : Fin 4) ⟨0, 20, 4096, 4⟩ } } : State).lineEntry 12
        = some ⟨.safety, .ask (.flash 3), none⟩ := by decide

theorem witness_release :
    driven.Takes (cmdFrom .drive) .drive ∧ (args 0 15 0 0 0)[1].toNat ≤ 15
      ∧ ((args 1 15 4 0 0)[0].toNat = 1 ∧ (args 1 15 4 0 0)[2].toNat ≤ 4) ∧ (args 2 0 0 0 0)[0].toNat = 2
      ∧ 2 < (args 3 0 0 0 0)[0].toNat ∧ 15 < (args 0 16 0 0 0)[1].toNat ∧ 4 < (args 1 0 5 0 0)[2].toNat
      ∧ (driven.chan 7).demand.list.net.get .drive ≠ none ∧ (driven.chan 6).demand.list.net.get .drive = none :=
  ⟨takes_of (by decide), by decide⟩

theorem witness_clear_channel :
    locked.Takes (cmdFrom .service) .service ∧ locked.lines.svc.active = true
      ∧ (args 6 0 0 0 0)[0].toNat = (6 : Channel).val ∧ (locked.chan 6).prot.state = .lockout .overload
      ∧ (args 15 0 0 0 0)[0].toNat = (15 : Channel).val ∧ (locked.chan 15).prot.state = .ready
      ∧ (onProfile base 6 fun p => { p with permission := 14 }).Takes (cmdFrom .cab) .cab
      ∧ ((onProfile base 6 fun p => { p with permission := 14 }).profile 6).permits .cab = false
      ∧ (args 255 0 0 0 0)[0].toNat = 255 ∧ 16 ≤ (args 16 0 0 0 0)[0].toNat ∧ (args 254 0 0 0 0)[0].toNat ≤ 254 :=
  ⟨takes_of (by decide), by decide, by decide, by decide, by decide, by decide, takes_of (by decide), by decide⟩

theorem witness_clear_emergency :
    base.lines.svc.active = false
      ∧ (({ base with lines := { base.lines with emg := ⟨false, true, none⟩ } } : State).Takes (cmdFrom .cab) .cab
        ∧ ({ base with lines := { base.lines with emg := ⟨false, true, none⟩ } } : State).lines.emg.active = true)
      ∧ (base.lines.emg.active = false ∧ base.latch = false)
      ∧ ({ base with latch := true } : State).Takes (cmdFrom .cab) .cab :=
  ⟨by decide, ⟨takes_of (by decide), by decide⟩, by decide, takes_of (by decide)⟩

theorem witness_queries :
    15 < (args 16 0 0 0 0)[0].toNat ∧ (args 15 0 0 0 0)[0].toNat = (15 : Channel).val
      ∧ ((base.chan 15).sw.out.applied ≤ 1000 ∧ ((heated 0 .ready).chan 6).sw.out.applied = 1000) := by decide

theorem witness_reads :
    driven.Takes (cmdFrom .cab) .cab
      ∧ ((driven.chan 5).demand.list.entries.length ≤ (args 5 1 0 0 0)[1].toNat
        ∧ (driven.chan 5).demand.list.entries[0]? = some (.net .drive, ⟨.duty, .ask .off, some 5000⟩))
      ∧ (1 < (args 2 0 0 0 0)[0].toNat ∧ 1 < (args 0 2 0 0 0)[1].toNat)
      ∧ (driven.faults.records.length ≤ (args 1 0 0 0 0)[0].toNat
        ∧ driven.faults.records[0]? = some ⟨.configDefaulted, 0, 0, 1, false⟩)
      ∧ (16 ≤ (args 16 0 0 0 0)[0].toNat ∧ (args 254 0 0 0 0)[0].toNat ≤ 254) ∧ (args 255 1 0 0 0)[0].toNat = 255 :=
  ⟨takes_of (by decide), by decide⟩

theorem witness_config_write :
    (nameField 0 16 0 = none ∧ nameField 1 0 9 = none ∧ nameField 4 3 3 = some (.line 3 .command))
      ∧ ((svcOn base).store = .idle ∧ (svcOn base).lines.svc.active = true)
      ∧ ({ svcOn base with store := .storing 0 } : State).Takes (cmdFrom .service) .service
      ∧ ({ svcOn base with heldStore := some (replyFrame 15 .service 0 []) } : State).Takes (cmdFrom .service) .service
      ∧ (nameField 0 5 3 = some (.profile 5 .warm) ∧ (ConfigField.profile 5 .warm).inRange 4095 = false
        ∧ (ConfigField.profile 5 .warm).inRange 6552 = true
        ∧ ((svcOn base).cfg.write (.profile 5 .warm) 6552).relatedAt (.profile 5 .warm) = true
        ∧ (ConfigField.profile 5 .warm).inRange 6553 = true
        ∧ ((svcOn base).cfg.write (.profile 5 .warm) 6553).relatedAt (.profile 5 .warm) = false)
      ∧ (((svcOn base).chan 5).sw.out = .off ∧ ((svcOn base).chan 5).prot.state = .ready)
      ∧ (svcOn (heated 0 .ready)).Takes (cmdFrom .service) .service
      ∧ ((svcOn (heated 0 .ready)).chan 6).sw.out ≠ .off :=
  ⟨by decide, by decide, takes_of (by decide), takes_of (by decide), by decide, by decide, takes_of (by decide),
    by decide⟩

/-- A write of a value held and of one not held, for each kind of field; the clauses on debounce and start grace met at
their boundaries. -/
theorem witness_config_effects :
    (base.cfg.read (.profile 5 .warm) = 4096 ∧ base.cfg.read (.profile 5 .retryLimit) = 3
        ∧ base.cfg.read (.profile 5 .openLoad) = 0 ∧ base.cfg.read (.lapse .cab) = 50 ∧ base.cfg.read (.pattern 0 .onTime) = 34)
      ∧ (base.cfg.read (.zone .lv1) = 230 ∧ base.sup.latest = none
        ∧ ({ base with sup := { base.sup with latest := some 231 } } : State).sup.latest = some 231)
      ∧ (base.cfg.read (.zone .startGrace) = 10 ∧ base.graceStart = some 0
        ∧ 0 + 1000 * 5 ≤ ({ base with now := 5000 } : State).now ∧ ({ base with now := 4999 } : State).now < 0 + 1000 * 5)
      ∧ (base.cfg.read (.zone .admissionInterval) = 20 ∧ base.cfg.read (.zone .statusInterval) = 100)
      ∧ (base.cfg.read (.line 0 .polarity) = 0 ∧ base.cfg.read (.line 0 .mask) = 0 ∧ base.cfg.read (.line 0 .command) = 0
        ∧ base.lines.conf[(0 : Fin 4)] = ⟨false, false, none⟩)
      ∧ ((brake ⟨true, false, some 0⟩).cfg.read (.line 0 .debounce) = 20
        ∧ (brake ⟨true, false, some 0⟩).lines.conf[(0 : Fin 4)].debounce = some 0
        ∧ 0 + 10 * 5 ≤ ({ brake ⟨true, false, some 0⟩ with now := 50 } : State).now
        ∧ ({ brake ⟨true, false, some 0⟩ with now := 49 } : State).now < 0 + 10 * 5)
      ∧ (({ base with cfg := { base.cfg with line := base.cfg.line.set (0 : Fin 4) ⟨0, 0, 4096, 0⟩ } } : State).cfg.line[
        (0 : Fin 4)]).debounce = 0 := by decide +kernel

theorem witness_store :
    (({ svcOn base with store := .storing 0 } : State).Takes (cmdFrom .service) .service
        ∧ ({ svcOn base with store := .storing 0 } : State).store ≠ .idle)
      ∧ ((svcOn base).store = .idle ∧ (svcOn base).heldStore = none)
      ∧ (({ base with store := .storing 0 } : State).store = .storing 0
        ∧ WorkingConfig.default.toImage.check ≠ (7457 : Nat)) :=
  ⟨⟨takes_of (by decide), by decide⟩, by decide, by decide⟩

theorem witness_status :
    ((heated 0 .trippedOverload).chan 6).prot.state ≠ .ready
      ∧ ((held .shed).chan 0).arb.winner = some ⟨.net .cab, .comfort, .ask .on⟩ ∧ ((held .shed).chan 0).sw.out = .off
      ∧ ((heated 0 .ready).chan 6).sw.out ≠ .off ∧ (base.chan 0).arb.winner = none := by decide

theorem witness_transmission :
    ((loaded.port .a).link = .online ∧ (loaded.port .a).sending = none
        ∧ (loaded.port .a).replies = [⟨.cab, packBytes [32]⟩])
      ∧ ((({ loaded with portA := { loaded.portA with replies := [] } } : State).port .a).replies = []
        ∧ (({ loaded with portA := { loaded.portA with replies := [] } } : State).port .a).status = some (packBytes [1]))
      ∧ ((after (.takeIntoTransmission .a) loaded).port .a).sending = some (.reply ⟨.cab, packBytes [32]⟩)
      ∧ (((after (.takeIntoTransmission .a) { loaded with
            portA := { loaded.portA with replies := [replyFrame 13 .service 0 []] } }).port .a).sending
          = some (.reply (replyFrame 13 .service 0 []))
        ∧ (replyFrame 13 .service 0 []).requester = .service) := by decide

theorem witness_bus_off :
    base.portA.link = .online ∧ base.portB.link = .online ∧ (after (.busOff .a) base).portA.link = .offline 0
      ∧ (after (.busOff .b) base).portB.link = .offline 0 := by decide

theorem witness_reports :
    (fullList.together.moment ≠ 1 ∧ (fullList.records.map FaultRecord.key).Nodup
        ∧ fullList.records = [] ++ ⟨.openLoadOn 0, 5, 5, 1, true⟩ :: fullList.records.tail)
      ∧ (16 ≤ fullList.records.length ∧ (∀ r ∈ fullList.records, r.active = true)
        ∧ ∀ r ∈ fullList.records, r.key ≠ .emergency)
      ∧ (base.faults.records.length < 16 ∧ ∀ r ∈ base.faults.records, r.key ≠ .emergency)
      ∧ (base.faults.records.length ≤ 14 ∧ ∀ r ∈ base.faults.records, r.key ≠ .storeFailed)
      ∧ (onePassive.together.moment ≠ 2 ∧ (onePassive.records.map FaultRecord.key).Nodup
        ∧ 16 ≤ onePassive.records.length
        ∧ onePassive.records
          = onePassive.records.take 3 ++ ⟨.openLoadOn 3, 5, 5, 1, false⟩ :: onePassive.records.drop 4
        ∧ (∀ r ∈ onePassive.records.take 3 ++ onePassive.records.drop 4, r.active = true)
        ∧ (∀ r ∈ onePassive.records, r.key ≠ .emergency ∧ r.key ≠ .storeFailed)
        ∧ (∃ r ∈ onePassive.records, r.key = .openLoadOn 3) ∧ ∃ r ∈ onePassive.records, r.key = .openLoadOn 1)
      ∧ (fullList.records.tail.length = 15 ∧ (∀ r ∈ fullList.records.tail, r.active = true)
        ∧ (∀ r ∈ fullList.records.tail, r.key ≠ .emergency ∧ r.key ≠ .storeFailed)
        ∧ FaultKey.storeFailed.isEvent = true ∧ FaultKey.emergency.isEvent = false)
      ∧ (onePassive.records.tail.length = 15 ∧ onePassive.records.tail
          = onePassive.records.tail.take 2 ++ ⟨.openLoadOn 3, 5, 5, 1, false⟩ :: onePassive.records.tail.drop 3
        ∧ ∀ r ∈ onePassive.records.tail.take 2, r.active = true)
      ∧ (let m := onePassive.finish 1 (.openLoadOn 5)
        m.records = m.records.take 3
            ++ ⟨.openLoadOn 3, 5, 5, 1, false⟩ :: ([m.records[4]] ++ ⟨.openLoadOn 5, 5, 5, 1, false⟩ :: m.records.drop 6)
          ∧ ∀ r ∈ m.records.take 3 ++ [m.records[4]], r.active = true) := by
  decide

/-- Port A sending a REPLY to SERVICE, with replies held behind it. -/
def holding (store command : Option Reply) : State :=
  { base with
    portA := { base.portA with sending := some (.reply (replyFrame 13 .service 0 [])) }
    heldStore := store, heldCommand := command }

theorem witness_held_replies :
    (((holding none none).port .a).sending = some (.reply (replyFrame 13 .service 0 []))
        ∧ (holding none none).heldStore = none ∧ (holding none none).heldCommand = none)
      ∧ (holding (some (replyFrame 15 .service 0 [])) none).heldStore = some (replyFrame 15 .service 0 [])
      ∧ ((holding none (some (replyFrame 13 .service 0 []))).heldStore = none
        ∧ (holding none (some (replyFrame 13 .service 0 []))).heldCommand = some (replyFrame 13 .service 0 [])) := by
  decide

theorem witness_line_bounce :
    ((brake ⟨true, false, some 0⟩).line (.conf 0)).high ≠ false
      ∧ decide (false = decide ((brake ⟨true, false, some 0⟩).cfg.line[(0 : Fin 4)].polarity = 0))
        = ((brake ⟨true, false, some 0⟩).line (.conf 0)).active := by decide

theorem witness_short_test_in_allowance :
    let s := onChan (heated 0 .ready) 6 fun x => { x with sw := { x.sw with allowance := some 1000 } }
    (s.chan 6).sw.allowance ≠ none ∧ (s.chan 6).prot.state = .ready
      ∧ min (2 * (s.profile 6).shortRatio) 1023 ≤ min 1023 (64 * 1599 / (10 * 10)) := by decide

end Sys2Proof.Tests
end

section
/-! SUPPORT. Arbitration and limiting: what picks the winner, what the derate and the conversion do to each output, and
how the granted duty runs down the limiter chain. -/

namespace Sys2Proof.Machine

/-! ### The winner (R51) -/

/-- The order of R51 among candidates: higher class, then greater strength, then a source number not above the other's. -/
def Candidate.Outranks (a b : Candidate) : Prop :=
  Class.code b.entry.cls < Class.code a.entry.cls
    ∨ (Class.code b.entry.cls = Class.code a.entry.cls
      ∧ (b.strength < a.strength ∨ (b.strength = a.strength ∧ Source.code a.source ≤ Source.code b.source)))

theorem Candidate.Outranks.refl (a : Candidate) : a.Outranks a := by simp [Candidate.Outranks]

theorem Candidate.Outranks.trans {a b c : Candidate} (hab : a.Outranks b) (hbc : b.Outranks c) : a.Outranks c := by
  unfold Candidate.Outranks at *
  omega

theorem Candidate.beats_iff (a b : Candidate) :
    a.beats b = true ↔ Class.code b.entry.cls < Class.code a.entry.cls
      ∨ (Class.code a.entry.cls = Class.code b.entry.cls ∧ b.strength < a.strength) := by
  simp [Candidate.beats]

theorem Candidate.outranks_of_beats {a b : Candidate} (h : a.beats b = true) : a.Outranks b := by
  rw [Candidate.beats_iff] at h
  unfold Candidate.Outranks
  omega

/-- The earlier candidate, of a source number not above, keeps its place against one that does not beat it. -/
theorem Candidate.outranks_of_not_beats {a b : Candidate} (h : ¬ b.beats a = true)
    (hs : Source.code a.source ≤ Source.code b.source) : a.Outranks b := by
  rw [Candidate.beats_iff] at h
  unfold Candidate.Outranks
  omega

/-- Candidates stand in ascending source number. -/
def Candidate.Ascending (l : List Candidate) : Prop :=
  l.Pairwise fun a b => Source.code a.source ≤ Source.code b.source

theorem pickWinner_eq_none_iff (l : List Candidate) : pickWinner l = none ↔ l = [] := by
  cases l <;> simp [pickWinner]

@[simp] theorem pickWinner_singleton (a : Candidate) : pickWinner [a] = some a := rfl

/-- The first two candidates are settled between each other before the rest is looked at. -/
theorem pickWinner_cons_cons (a b : Candidate) (l : List Candidate) :
    pickWinner (a :: b :: l) = pickWinner ((if b.beats a then b else a) :: l) := rfl

/-- Among candidates in ascending source number the one picked is of the list and outranks every one of it. -/
theorem pickWinner_outranks {a : Candidate} {l : List Candidate} (hl : Candidate.Ascending (a :: l)) {w : Candidate}
    (hw : pickWinner (a :: l) = some w) : w ∈ a :: l ∧ ∀ x ∈ a :: l, w.Outranks x := by
  induction l generalizing a with
  | nil =>
    obtain rfl : a = w := by simpa using hw
    simp [Candidate.Outranks.refl]
  | cons b l ih =>
    rw [pickWinner_cons_cons] at hw
    simp only [Candidate.Ascending, List.pairwise_cons, List.mem_cons, forall_eq_or_imp] at hl ih
    obtain ⟨⟨hab, hal⟩, hbl, hl⟩ := hl
    split at hw
    · next hbeats =>
      obtain ⟨hmem, hwb, hrest⟩ := ih ⟨hbl, hl⟩ hw
      simp only [List.mem_cons, forall_eq_or_imp]
      exact ⟨.inr hmem, hwb.trans (Candidate.outranks_of_beats hbeats), hwb, hrest⟩
    · next hbeats =>
      obtain ⟨hmem, hwa, hrest⟩ := ih ⟨hal, hl⟩ hw
      simp only [List.mem_cons, forall_eq_or_imp]
      exact ⟨hmem.imp_right .inr, hwa, hwa.trans (Candidate.outranks_of_not_beats hbeats hab), hrest⟩

theorem mem_allSources (src : Source) : src ∈ allSources := by
  rcases src with s | _ | _
  · cases s <;> decide
  · decide
  · decide

theorem allSources_ascending : allSources.Pairwise fun r s => Source.code r ≤ Source.code s := by decide

theorem DemandList.mem_entries_iff (l : DemandList) (src : Source) (e : Entry) :
    (src, e) ∈ l.entries ↔ l.get src = some e := by
  simp [DemandList.entries, mem_allSources]

/-- The candidates are the entries present that have a strength (R51). -/
theorem DemandList.mem_candidates_iff (l : DemandList) (x : Candidate) :
    x ∈ l.candidates ↔ l.get x.source = some x.entry ∧ x.entry.command.strength? = some x.strength := by
  obtain ⟨src, e, n⟩ := x
  simp [DemandList.candidates, DemandList.mem_entries_iff]

theorem DemandList.candidates_ascending (l : DemandList) : Candidate.Ascending l.candidates := by
  simp only [Candidate.Ascending, DemandList.candidates, DemandList.entries, List.pairwise_filterMap]
  refine allSources_ascending.imp ?_
  intro r s hrs
  simp only [Option.map_eq_some_iff, forall_exists_index, and_imp]
  rintro _ _ _ rfl _ _ _ rfl _ _ _ rfl _ _ _ rfl
  exact hrs

theorem DemandList.winner_eq_none_iff (l : DemandList) :
    l.winner = none ↔ ∀ src e, l.get src = some e → e.command.strength? = none := by
  rw [DemandList.winner, Option.map_eq_none_iff, pickWinner_eq_none_iff, List.eq_nil_iff_forall_not_mem]
  simp only [DemandList.mem_candidates_iff, not_and, Option.eq_none_iff_forall_ne_some]
  exact ⟨fun h src e he n => h ⟨src, e, n⟩ he, fun h x hx => h x.source x.entry hx x.strength⟩

/-- A winner is the copy of a candidate that outranks every candidate of the list. -/
theorem DemandList.exists_candidate_of_winner {l : DemandList} {w : Winner} (h : l.winner = some w) :
    ∃ x ∈ l.candidates, w = ⟨x.source, x.entry.cls, x.entry.command.won⟩ ∧ ∀ y ∈ l.candidates, x.Outranks y := by
  have hasc := l.candidates_ascending
  unfold DemandList.winner at h
  obtain ⟨x, hx, rfl⟩ := Option.map_eq_some_iff.1 h
  generalize l.candidates = cs at hx hasc ⊢
  cases cs with
  | nil => simp [pickWinner] at hx
  | cons a cs =>
    obtain ⟨hmem, hrank⟩ := pickWinner_outranks hasc hx
    exact ⟨x, hmem, rfl, hrank⟩

/-- Settles O13: the winner is found by the fold of pickWinner over candidates in ascending source number. -/
theorem winnerIsStrongest : Obligations.WinnerIsStrongest := by
  refine ⟨⟨rfl, fun _ => rfl, fun _ => rfl, rfl, fun _ _ => rfl, fun _ => rfl⟩, fun l => ⟨l.winner_eq_none_iff, ?_⟩⟩
  intro w hw
  obtain ⟨x, hx, rfl, hrank⟩ := DemandList.exists_candidate_of_winner hw
  obtain ⟨hget, hstrength⟩ := (l.mem_candidates_iff x).1 hx
  refine ⟨x.entry, x.strength, hget, hstrength, rfl, rfl, fun src' e' n' hget' hstrength' => ?_⟩
  exact hrank ⟨src', e', n'⟩ ((l.mem_candidates_iff _).2 ⟨hget', hstrength'⟩)

/-! ### Derate (R58) -/

theorem Profile.allowsPwm_iff (p : Profile) : p.allowsPwm = true ↔ p.pwmAllowed = 1 := by simp [Profile.allowsPwm]

/-- The derate acts only on a WARM channel with PWM allowed. -/
theorem limitDerate_of_inactive {i : LimitInputs} (h : i.prot ≠ .warm ∨ i.profile.pwmAllowed ≠ 1) (x : Limited) :
    limitDerate i x = x := by
  unfold limitDerate
  rw [if_neg]
  simpa [Profile.allowsPwm_iff, imp_iff_not_or] using h

theorem derate_active {i : LimitInputs} (hw : i.prot = .warm) (hp : i.profile.pwmAllowed = 1) :
    (decide (i.prot = .warm) && i.profile.allowsPwm) = true := by
  simp [hw, (Profile.allowsPwm_iff _).2 hp]

theorem limitDerate_steady {i : LimitInputs} (hw : i.prot = .warm) (hp : i.profile.pwmAllowed = 1) (k : CauseSet) :
    limitDerate i ⟨.steady, k⟩ =
      if 4 * i.profile.derate < 1000 then ⟨.dim (4 * i.profile.derate), k.add .derate⟩ else ⟨.steady, k⟩ := by
  rw [limitDerate, if_pos (derate_active hw hp)]
  rfl

theorem limitDerate_dim {i : LimitInputs} (hw : i.prot = .warm) (hp : i.profile.pwmAllowed = 1) (k : CauseSet)
    (d : Nat) : limitDerate i ⟨.dim d, k⟩ =
      if 4 * i.profile.derate < d then ⟨.dim (4 * i.profile.derate), k.add .derate⟩ else ⟨.dim d, k⟩ := by
  rw [limitDerate, if_pos (derate_active hw hp)]
  rfl

@[simp] theorem limitDerate_off (i : LimitInputs) (k : CauseSet) : limitDerate i ⟨.off, k⟩ = ⟨.off, k⟩ := by
  simp [limitDerate]

@[simp] theorem limitDerate_flash (i : LimitInputs) (k : CauseSet) (p : Pattern) :
    limitDerate i ⟨.flash p, k⟩ = ⟨.flash p, k⟩ := by
  simp [limitDerate]

/-! ### Conversion (R59) -/

theorem limitConvert_of_pwm {i : LimitInputs} (h : i.profile.pwmAllowed = 1) (x : Limited) : limitConvert i x = x := by
  simp [limitConvert, (Profile.allowsPwm_iff _).2 h]

theorem limitConvert_dim {i : LimitInputs} (h : i.profile.pwmAllowed ≠ 1) (k : CauseSet) (d : Nat) :
    limitConvert i ⟨.dim d, k⟩ =
      if d = 1000 then ⟨.steady, k⟩ else if d < 1000 then ⟨.off, k⟩ else ⟨.dim d, k⟩ := by
  simp [limitConvert, Profile.allowsPwm_iff, h]

@[simp] theorem limitConvert_off (i : LimitInputs) (k : CauseSet) : limitConvert i ⟨.off, k⟩ = ⟨.off, k⟩ := by
  simp [limitConvert]

@[simp] theorem limitConvert_steady (i : LimitInputs) (k : CauseSet) : limitConvert i ⟨.steady, k⟩ = ⟨.steady, k⟩ := by
  simp [limitConvert]

@[simp] theorem limitConvert_flash (i : LimitInputs) (k : CauseSet) (p : Pattern) :
    limitConvert i ⟨.flash p, k⟩ = ⟨.flash p, k⟩ := by
  simp [limitConvert]

/-- Settles O15, from what the derate and the conversion make of each output. -/
theorem derateAndConversion : Obligations.DerateAndConversion := by
  intro i k
  refine ⟨fun o h => limitDerate_of_inactive h _, fun hw hp => ?_, fun o h => limitConvert_of_pwm h _, fun h => ?_⟩
  · exact ⟨limitDerate_steady hw hp k, limitDerate_dim hw hp k, limitDerate_flash i k⟩
  · refine ⟨by simp [limitConvert_dim h], fun d hd => ?_, limitConvert_steady i k, limitConvert_flash i k⟩
    rw [limitConvert_dim h, if_neg (by omega), if_pos hd]

/-! ### The granted duty down the chain (R60) -/

@[simp] theorem Output.grant_off : Output.grant .off = .off := rfl
@[simp] theorem Output.grant_steady : Output.grant .steady = .steady := rfl
@[simp] theorem Output.grant_flash (p : Pattern) : Output.grant (.flash p) = .flash p := rfl

theorem Output.grant_dim_of_inner {d : Nat} (h : 1 ≤ d) (h' : d ≤ 999) : Output.grant (.dim d) = .pwm d := by
  rw [Output.grant, if_neg (by omega), if_neg (by omega)]

@[simp] theorem Granted.duty_off : Granted.duty .off = 0 := rfl
@[simp] theorem Granted.duty_steady : Granted.duty .steady = 1000 := rfl

/-- A DIM output is granted its own duty, in the form of OFF, STEADY or PWM. -/
@[simp] theorem Output.duty_grant_dim (d : Nat) : (Output.grant (.dim d)).duty = d := by
  rw [Output.grant]
  split
  · next h => exact h.symm
  · split
    · next h => exact h.symm
    · rfl

/-- The provisional output is granted exactly the duty the winner asks (R52). -/
theorem duty_grant_provisional (w : Option Winner) : (provisional w).grant.duty = askedDuty w := by
  rcases w with _ | ⟨_, _, a | _⟩
  · rfl
  · cases a with
    | off => rfl
    | on => rfl
    | dim d => exact Output.duty_grant_dim d
    | flash p => rfl
  · rfl

/-- A step of the chain that turns the output OFF or leaves it grants no more than before. -/
theorem Limited.duty_cut_le (x : Limited) (cond : Bool) (k : LimitCause) :
    (x.cut cond k).out.grant.duty ≤ x.out.grant.duty := by
  unfold Limited.cut
  split
  · exact Nat.zero_le _
  · exact le_rfl

theorem duty_limitDerate_le (i : LimitInputs) (x : Limited) :
    (limitDerate i x).out.grant.duty ≤ x.out.grant.duty := by
  by_cases h : i.prot ≠ .warm ∨ i.profile.pwmAllowed ≠ 1
  · rw [limitDerate_of_inactive h]
  obtain ⟨hw, hp⟩ : i.prot = .warm ∧ i.profile.pwmAllowed = 1 := by simpa using h
  obtain ⟨o, k⟩ := x
  cases o with
  | off => simp
  | flash p => simp
  | steady =>
    rw [limitDerate_steady hw hp]
    split
    · next hcap => simpa using hcap.le
    · exact le_rfl
  | dim d =>
    rw [limitDerate_dim hw hp]
    split
    · next hcap => simpa using hcap.le
    · exact le_rfl

theorem duty_limitConvert_le (i : LimitInputs) (x : Limited) :
    (limitConvert i x).out.grant.duty ≤ x.out.grant.duty := by
  by_cases h : i.profile.pwmAllowed = 1
  · rw [limitConvert_of_pwm h]
  obtain ⟨o, k⟩ := x
  cases o with
  | off => simp
  | flash p => simp
  | steady => simp
  | dim d =>
    rw [limitConvert_dim h]
    split
    · next hd => simp [hd]
    · split
      · exact Nat.zero_le _
      · exact le_rfl

/-- No step of the limiter chain raises the granted duty. -/
theorem duty_limitChain_le (i : LimitInputs) (o : Output) : (limitChain i o).out.grant.duty ≤ o.grant.duty :=
  calc (limitChain i o).out.grant.duty
    _ ≤ (limitShed i (limitOvervoltage i (limitEmergency i (limitProtection i ⟨o, .empty⟩)))).out.grant.duty :=
        (duty_limitConvert_le i _).trans (duty_limitDerate_le i _)
    _ ≤ (limitEmergency i (limitProtection i ⟨o, .empty⟩)).out.grant.duty :=
        (Limited.duty_cut_le _ _ _).trans (Limited.duty_cut_le _ _ _)
    _ ≤ (limitProtection i ⟨o, .empty⟩).out.grant.duty := Limited.duty_cut_le _ _ _
    _ ≤ o.grant.duty := (Limited.duty_cut_le _ _ _).trans (Limited.duty_cut_le _ _ _)

/-- Settles O16: the provisional output grants what the winner asks, and the chain never raises it. -/
theorem grantNeverExceedsAsked : Obligations.GrantNeverExceedsAsked := by
  refine ⟨Output.grant_off, Output.grant_steady, rfl, rfl, fun d => Output.grant_dim_of_inner, Output.grant_flash,
    fun i w => ?_⟩
  rw [← duty_grant_provisional w]
  exact duty_limitChain_le i (provisional w)

end Sys2Proof.Machine
end

section
/-! SUPPORT. The heat model under a constant power term: the update is monotone, it rises, stays or falls as the decay
term is below, at or above the power term, and a monotone update of that shape ends in a band. -/

namespace Sys2Proof.Machine

/-! ### Iterating a monotone update -/

/-- The distance of x from the band from lo to hi; 0 inside it. -/
def bandDistance (lo hi x : Nat) : Nat := (lo - x) + (x - hi)

section
variable {f : Nat → Nat} {lo hi : Nat}

/-- Outside the band, an update that moves towards it and does not cross it comes nearer. -/
theorem bandDistance_lt (mono : Monotone f) (band : lo ≤ hi) (hlo : lo ≤ f lo) (hhi : f hi ≤ hi)
    (rise : ∀ x < lo, x < f x) (fall : ∀ x, hi < x → f x < x) {x : Nat} (out : ¬(lo ≤ x ∧ x ≤ hi)) :
    bandDistance lo hi (f x) < bandDistance lo hi x := by
  unfold bandDistance
  rcases Nat.lt_or_ge x lo with below | hx
  · have hrise := rise x below
    have htop : f x ≤ f hi := mono (below.le.trans band)
    omega
  · have above : hi < x := by omega
    have hfall := fall x above
    have hbottom : f lo ≤ f x := mono hx
    omega

/-- The update reaches the band by descent on the distance from it, and from then on stays in it. -/
theorem iterate_eventually_in_band (mono : Monotone f) (band : lo ≤ hi) (hlo : lo ≤ f lo) (hhi : f hi ≤ hi)
    (rise : ∀ x < lo, x < f x) (fall : ∀ x, hi < x → f x < x) (x : Nat) :
    ∃ n, ∀ m, n ≤ m → lo ≤ f^[m] x ∧ f^[m] x ≤ hi := by
  induction hd : bandDistance lo hi x using Nat.strong_induction_on generalizing x with
  | _ d ih =>
    subst hd
    by_cases inside : lo ≤ x ∧ x ≤ hi
    · have kept : Set.MapsTo f (Set.Icc lo hi) (Set.Icc lo hi) :=
        fun y hy => ⟨hlo.trans (mono hy.1), (mono hy.2).trans hhi⟩
      exact ⟨0, fun m _ => kept.iterate m inside⟩
    · obtain ⟨n, hn⟩ := ih _ (bandDistance_lt mono band hlo hhi rise fall inside) (f x) rfl
      refine ⟨n + 1, fun m hm => ?_⟩
      obtain ⟨m, rfl⟩ : ∃ j, m = j + 1 := ⟨m - 1, by omega⟩
      exact hn m (by omega)

/-- A bound that a monotone update keeps is never passed from below. -/
theorem iterate_le_of_kept (mono : Monotone f) (hhi : f hi ≤ hi) {x : Nat} (hx : x ≤ hi) (n : Nat) :
    f^[n] x ≤ hi := by
  have kept : Set.MapsTo f (Set.Iic hi) (Set.Iic hi) := fun y hy => (mono hy).trans hhi
  exact kept.iterate n hx

end

/-! ### One update (R85) -/

/-- What the decay leaves of an estimate grows with it: one more unit of heat takes at most one more unit of decay. -/
theorem decayed_mono (d : Nat) : Monotone fun h : Nat => h - h / d := by
  refine monotone_nat_of_le_succ fun h => ?_
  have hdiv : (h + 1) / d ≤ h / d + 1 := by
    rw [Nat.succ_div]
    split <;> omega
  omega

theorem heatStep_mono (k p : Nat) : Monotone (heatStep k p) :=
  fun _ _ h => min_le_min_left _ (Nat.add_le_add_right (decayed_mono _ h) p)

theorem heatStep_le_heatMax (k p h : Nat) : heatStep k p h ≤ heatMax := min_le_left _ _

theorem heatStep_of_decay_eq {k p h : Nat} (hd : h / 2 ^ k = p) (hmax : h ≤ heatMax) : heatStep k p h = h := by
  have hle := Nat.div_le_self h (2 ^ k)
  unfold heatStep
  omega

/-- Below P * 2 ^ k the decay term is below P, so the update raises the estimate. -/
theorem lt_heatStep {k p h : Nat} (hmax : h < heatMax) (below : h < p * 2 ^ k) : h < heatStep k p h := by
  have hd : h / 2 ^ k < p := (Nat.div_lt_iff_lt_mul (Nat.two_pow_pos k)).2 below
  have hle := Nat.div_le_self h (2 ^ k)
  unfold heatStep
  omega

theorem le_heatStep {k p h : Nat} (hmax : h ≤ heatMax) (hlevel : h ≤ p * 2 ^ k) : h ≤ heatStep k p h := by
  have hd : h / 2 ^ k ≤ p := Nat.div_le_of_le_mul (hlevel.trans_eq (Nat.mul_comm _ _))
  have hle := Nat.div_le_self h (2 ^ k)
  unfold heatStep
  omega

theorem heatStep_lt_of_lt_decay {k p h : Nat} (hd : p < h / 2 ^ k) : heatStep k p h < h := by
  have hle := Nat.div_le_self h (2 ^ k)
  unfold heatStep
  omega

theorem heatStep_le_of_le_decay {k p h : Nat} (hd : p ≤ h / 2 ^ k) : heatStep k p h ≤ h := by
  have hle := Nat.div_le_self h (2 ^ k)
  unfold heatStep
  omega

theorem heatStep_lt_of_heatMax_lt {k p h : Nat} (hmax : heatMax < h) : heatStep k p h < h :=
  (heatStep_le_heatMax k p h).trans_lt hmax

/-! ### The band of R89 -/

theorem bandBottom_le_bandTop (k p : Nat) : p * 2 ^ k ≤ p * 2 ^ k + 2 ^ k - 1 := by
  have hpos := Nat.two_pow_pos k
  omega

section
variable {k p : Nat} (range : p * 2 ^ k + 2 ^ k - 1 ≤ heatMax)
include range

/-- The band is where the decay term equals the power term. -/
theorem heatStep_in_band {h : Nat} (hlo : p * 2 ^ k ≤ h) (hhi : h ≤ p * 2 ^ k + 2 ^ k - 1) : heatStep k p h = h :=
  heatStep_of_decay_eq ((Nat.div_eq_iff (Nat.two_pow_pos k)).2 ⟨hlo, hhi⟩) (hhi.trans range)

theorem heatStep_bottom : heatStep k p (p * 2 ^ k) = p * 2 ^ k :=
  heatStep_in_band range le_rfl (bandBottom_le_bandTop k p)

theorem heatStep_top : heatStep k p (p * 2 ^ k + 2 ^ k - 1) = p * 2 ^ k + 2 ^ k - 1 :=
  heatStep_in_band range (bandBottom_le_bandTop k p) le_rfl

theorem lt_heatStep_below_band {h : Nat} (below : h < p * 2 ^ k) : h < heatStep k p h :=
  lt_heatStep (below.trans_le ((bandBottom_le_bandTop k p).trans range)) below

end

/-- Above the band the decay term exceeds the power term. -/
theorem heatStep_lt_above_band {k p h : Nat} (above : p * 2 ^ k + 2 ^ k - 1 < h) : heatStep k p h < h := by
  refine heatStep_lt_of_lt_decay ((Nat.le_div_iff_mul_le (Nat.two_pow_pos k)).2 ?_)
  rw [Nat.succ_mul]
  omega

theorem heat_settles_in_band {k p : Nat} (range : p * 2 ^ k + 2 ^ k - 1 ≤ heatMax) (h : Nat) :
    (p * 2 ^ k ≤ h → h ≤ p * 2 ^ k + 2 ^ k - 1 → heatStep k p h = h)
    ∧ (h < p * 2 ^ k → h < heatStep k p h ∧ heatStep k p h ≤ p * 2 ^ k + 2 ^ k - 1)
    ∧ (p * 2 ^ k + 2 ^ k - 1 < h → p * 2 ^ k ≤ heatStep k p h ∧ heatStep k p h < h)
    ∧ ∃ n, ∀ m, n ≤ m → p * 2 ^ k ≤ (heatStep k p)^[m] h ∧ (heatStep k p)^[m] h ≤ p * 2 ^ k + 2 ^ k - 1 := by
  have band := bandBottom_le_bandTop k p
  refine ⟨heatStep_in_band range, fun below => ⟨lt_heatStep_below_band range below, ?_⟩,
    fun above => ⟨?_, heatStep_lt_above_band above⟩, ?_⟩
  · exact (heatStep_mono k p (below.le.trans band)).trans_eq (heatStep_top range)
  · exact (heatStep_bottom range).ge.trans (heatStep_mono k p (band.trans above.le))
  · exact iterate_eventually_in_band (heatStep_mono k p) band (heatStep_bottom range).ge (heatStep_top range).le
      (fun _ => lt_heatStep_below_band range) (fun _ => heatStep_lt_above_band) h

/-! ### Saturation, and the levels of R90 -/

/-- A band whose top is beyond the range has its bottom beyond it too, as 2 ^ k divides 2 ^ 32. -/
theorem heatMax_lt_bottom {k p : Nat} (hk : k ≤ 32) (beyond : heatMax < p * 2 ^ k + 2 ^ k - 1) :
    heatMax < p * 2 ^ k := by
  have hpow : heatMax + 1 = 2 ^ (32 - k) * 2 ^ k := by
    rw [← pow_add, Nat.sub_add_cancel hk]
    rfl
  have hlt : 2 ^ (32 - k) * 2 ^ k < (p + 1) * 2 ^ k := by
    rw [← hpow, Nat.succ_mul]
    omega
  have hle : 2 ^ (32 - k) ≤ p := Nat.le_of_lt_succ (Nat.lt_of_mul_lt_mul_right hlt)
  calc heatMax
    _ < 2 ^ (32 - k) * 2 ^ k := by omega
    _ ≤ p * 2 ^ k := Nat.mul_le_mul_right _ hle

/-- A level within the range and not above P * 2 ^ k is reached for good. -/
theorem heat_eventually_ge {k p lo : Nat} (hmax : lo ≤ heatMax) (hlevel : lo ≤ p * 2 ^ k) (h : Nat) :
    ∃ n, ∀ m, n ≤ m → lo ≤ (heatStep k p)^[m] h ∧ (heatStep k p)^[m] h ≤ heatMax :=
  iterate_eventually_in_band (heatStep_mono k p) hmax (le_heatStep hmax hlevel) (heatStep_le_heatMax k p _)
    (fun _ below => lt_heatStep (below.trans_le hmax) (below.trans_le hlevel)) (fun _ => heatStep_lt_of_heatMax_lt) h

theorem heat_saturates {k p : Nat} (hk : k ≤ 32) (beyond : heatMax < p * 2 ^ k + 2 ^ k - 1) (h : Nat) :
    (h < heatMax → h < heatStep k p h) ∧ ∃ n, ∀ m, n ≤ m → (heatStep k p)^[m] h = heatMax := by
  have hbottom := heatMax_lt_bottom hk beyond
  obtain ⟨n, hn⟩ := heat_eventually_ge le_rfl hbottom.le h
  exact ⟨fun hmax => lt_heatStep hmax (hmax.trans hbottom), n, fun m hm => (hn m hm).2.antisymm (hn m hm).1⟩

theorem heat_reaches_level {k p x : Nat} (hx : x ≤ p) (hmax : x * 2 ^ k ≤ heatMax) (h : Nat) :
    ∃ n, x * 2 ^ k ≤ (heatStep k p)^[n] h := by
  obtain ⟨n, hn⟩ := heat_eventually_ge hmax (Nat.mul_le_mul_right _ hx) h
  exact ⟨n, (hn n le_rfl).1⟩

/-- Below a level whose factor the power term does not reach, the estimate is kept below: the last value under the
level has a decay term of at least P, so the update does not raise it. -/
theorem heat_stays_below_level {k p x h : Nat} (hp : p < x) (below : h < x * 2 ^ k) (n : Nat) :
    (heatStep k p)^[n] h < x * 2 ^ k := by
  have hdecay : p ≤ (x * 2 ^ k - 1) / 2 ^ k := by
    rw [Nat.le_div_iff_mul_le (Nat.two_pow_pos k)]
    have hle : (p + 1) * 2 ^ k ≤ x * 2 ^ k := Nat.mul_le_mul_right _ hp
    have hpos := Nat.two_pow_pos k
    rw [Nat.succ_mul] at hle
    omega
  have hkept : (heatStep k p)^[n] h ≤ x * 2 ^ k - 1 :=
    iterate_le_of_kept (heatStep_mono k p) (heatStep_le_of_le_decay hdecay) (Nat.le_sub_one_of_lt below) n
  omega

/-- Settles O18: R89 in the range and above it, and R90, from the monotone update and the band it ends in. -/
theorem heatFollowsPower : Obligations.HeatFollowsPower := by
  refine ⟨fun k p h range => heat_settles_in_band range h, fun k p h hk _ beyond => heat_saturates hk beyond h, ?_⟩
  intro k p x h below hmax
  exact ⟨fun hx => heat_reaches_level hx hmax h, fun hp => heat_stays_below_level hp below⟩

end Sys2Proof.Machine
end

section
/-! SUPPORT. FLASH_SYNC: what a start of an ON_PHASE writes of its generator and of its users, what several starts in a
row write, and the bits of the mask that the reply names them by. -/

namespace Sys2Proof.Machine

/-! ### One user of a restarted pattern (R69, R130, R137) -/

/-- The records of a channel after a start of an ON_PHASE of its pattern at a moment: a CURRENT sample kind, and an
allowance for a lamp or motor with a window. -/
def ChannelState.drivenOn (x : ChannelState) (p : Profile) (now : Moment) : ChannelState :=
  { x with
    sense := { x.sense with kind := .current }
    sw := { x.sw with
      allowance :=
        if (p.kind = 0 ∨ p.kind = 2) ∧ 0 < p.window then some (now + 100 * p.window) else x.sw.allowance } }

/-- A change of phase is no switch-on: it reaches the sample kind only (R69, R140). -/
@[simp] theorem SenseRecord.report_phase (r : SenseRecord) (k : SampleKind) :
    r.report k false = { r with kind := k } := by
  simp [SenseRecord.report]

theorem Profile.queueUsing_iff (p : Profile) :
    p.queueUsing = true ↔ (p.kind = 0 ∨ p.kind = 2) ∧ 0 < p.window := by
  have kind : p.loadKind = .lamp ∨ p.loadKind = .motor ↔ p.kind = 0 ∨ p.kind = 2 := by
    unfold Profile.loadKind
    split <;> simp_all
  simp [Profile.queueUsing, kind]

/-- In ON_PHASE the report and the allowance are one write of the user's records. -/
theorem State.phaseAllowance_reportPhase {s : State} {c : Channel} {p : Pattern} (uses : (s.chan c).sw.out = .flash p)
    (on : s.patternOn p = true) :
    (s.reportPhase c).phaseAllowance c = s.setChan c ((s.chan c).drivenOn (s.profile c) s.now) := by
  have kind : s.kindFor c (s.chan c).sw.out = .current := by simp [State.kindFor, uses, on]
  have reported : s.reportPhase c
      = s.setChan c { s.chan c with sense := { (s.chan c).sense with kind := .current } } := by
    simp [State.reportPhase, State.withSense, kind]
  rw [reported, State.phaseAllowance, State.setChan_profile]
  by_cases h : (s.profile c).queueUsing = true
  · simp [h, State.startAllowance, State.withSwitch, ChannelState.drivenOn, (Profile.queueUsing_iff _).1 h,
      Profile.windowLength]
  · simp [h, ChannelState.drivenOn, mt (Profile.queueUsing_iff _).2 h]

/-! ### The users of one pattern -/

/-- t is s with exactly the channels of a list driven on. -/
structure DrivesOn (l : List Channel) (s t : State) : Prop where
  frame : t = { s with chans := t.chans }
  driven : ∀ c ∈ l, t.chan c = (s.chan c).drivenOn (s.profile c) s.now
  others : ∀ c, c ∉ l → t.chan c = s.chan c

theorem DrivesOn.nil (s : State) : DrivesOn [] s s := ⟨rfl, by simp, fun _ _ => rfl⟩

theorem DrivesOn.gens {l : List Channel} {s t : State} (h : DrivesOn l s t) : t.gens = s.gens := by rw [h.frame]

theorem DrivesOn.cons {c : Channel} {l : List Channel} {s t : State} (hc : c ∉ l)
    (h : DrivesOn l (s.setChan c ((s.chan c).drivenOn (s.profile c) s.now)) t) : DrivesOn (c :: l) s t := by
  obtain ⟨frame, driven, others⟩ := h
  refine ⟨frame, fun d hd => ?_, fun d hd => ?_⟩
  · rcases List.mem_cons.1 hd with rfl | hd
    · rw [others _ hc, State.chan_setChan_self]
    · have ne : d ≠ c := fun e => hc (e ▸ hd)
      rw [driven d hd, State.chan_setChan_ne _ _ ne, State.setChan_profile, State.setChan_now]
  · obtain ⟨ne, hd⟩ := not_or.1 (mt List.mem_cons.2 hd)
    rw [others d hd, State.chan_setChan_ne _ _ ne]

theorem drivesOn_foldl {p : Pattern} : ∀ (l : List Channel) (s : State), l.Nodup →
    (∀ c ∈ l, (s.chan c).sw.out = .flash p) → s.patternOn p = true →
    DrivesOn l s (l.foldl (fun t c => (t.reportPhase c).phaseAllowance c) s)
  | [], s, _, _, _ => .nil s
  | c :: l, s, nodup, uses, on => by
    obtain ⟨hc, nodup⟩ := List.nodup_cons.1 nodup
    rw [List.foldl_cons, State.phaseAllowance_reportPhase (uses c List.mem_cons_self) on]
    refine .cons hc (drivesOn_foldl l _ nodup (fun d hd => ?_) on)
    have ne : d ≠ c := fun e => hc (e ▸ hd)
    rw [State.chan_setChan_ne _ _ ne]
    exact uses d (List.mem_cons_of_mem _ hd)

theorem State.mem_usersOf (s : State) (p : Pattern) (c : Channel) :
    c ∈ s.usersOf p ↔ (s.chan c).sw.out = .flash p := by
  simp [State.usersOf, State.uses, mem_allChannels]

theorem State.nodup_usersOf (s : State) (p : Pattern) : (s.usersOf p).Nodup :=
  List.Nodup.filter _ (by decide)

/-! ### Starts of the ON_PHASE of several patterns (R137, R138) -/

theorem State.setGen_get (s : State) (p q : Pattern) (g : Generator) :
    (s.setGen p g).gens[q] = if q = p then g else s.gens[q] := by
  simp [State.setGen, Vector.getElem_set, Fin.ext_iff, eq_comm]

/-- t is s with exactly the patterns of a list restarted: their generators, and the channels that use one of them. -/
structure Restarts (l : List Pattern) (s t : State) : Prop where
  frame : t = { s with chans := t.chans, gens := t.gens }
  gens : ∀ p, t.gens[p] = if p ∈ l then ⟨s.gens[p].users, s.latched p⟩ else s.gens[p]
  users : ∀ c, ∀ p ∈ l, (s.chan c).sw.out = .flash p → t.chan c = (s.chan c).drivenOn (s.profile c) s.now
  others : ∀ c, (∀ p ∈ l, (s.chan c).sw.out ≠ .flash p) → t.chan c = s.chan c

theorem Restarts.nil (s : State) : Restarts [] s s := ⟨rfl, by simp, by simp, fun _ _ => rfl⟩

theorem State.startOnPhase_restarts (s : State) (p : Pattern) : Restarts [p] s (s.startOnPhase p) := by
  have on : (s.setGen p { s.gens[p] with state := s.latched p }).patternOn p = true := by
    rw [State.patternOn, State.setGen_get, if_pos rfl]; rfl
  have h : DrivesOn (s.usersOf p) _ (s.startOnPhase p) :=
    drivesOn_foldl _ _ (s.nodup_usersOf p) (fun c hc => (s.mem_usersOf p c).1 hc) on
  refine ⟨?_, fun q => ?_, fun c q hq uses => ?_, fun c unused => ?_⟩
  · rw [h.gens]; exact h.frame
  · rw [h.gens, State.setGen_get, if_congr List.mem_singleton rfl rfl]
    split
    · next e => rw [e]
    · rfl
  · obtain rfl := List.mem_singleton.1 hq
    exact h.driven c ((s.mem_usersOf q c).2 uses)
  · exact h.others c fun hc => unused p List.mem_cons_self ((s.mem_usersOf p c).1 hc)

/-- A restart changes no output state, so the users of the patterns that follow are the same. -/
theorem Restarts.out {l : List Pattern} {s t : State} (h : Restarts l s t) (c : Channel) :
    (t.chan c).sw.out = (s.chan c).sw.out := by
  by_cases used : ∃ p ∈ l, (s.chan c).sw.out = .flash p
  · obtain ⟨p, hp, uses⟩ := used
    rw [h.users c p hp uses]; rfl
  · rw [h.others c fun p hp uses => used ⟨p, hp, uses⟩]

theorem Restarts.latched {l : List Pattern} {s t : State} (h : Restarts l s t) (p : Pattern) :
    t.latched p = s.latched p := by rw [h.frame]; rfl

/-- Restarts of different patterns compose: no channel uses two. -/
theorem Restarts.cons {p : Pattern} {l : List Pattern} {s t u : State} (hp : p ∉ l) (h : Restarts [p] s t)
    (k : Restarts l t u) : Restarts (p :: l) s u where
  frame := by rw [k.frame, h.frame]
  gens q := by
    rw [k.gens, h.gens, h.latched]
    by_cases hq : q = p
    · subst hq; simp [hp]
    · simp [hq]
  users c q hq uses := by
    have uses' : (t.chan c).sw.out = .flash q := (h.out c).trans uses
    rcases List.mem_cons.1 hq with rfl | hl
    · rw [k.others c fun r hr e => by
        obtain rfl := OutState.flash.inj (uses'.symm.trans e)
        exact hp hr]
      exact h.users c q List.mem_cons_self uses
    · have ne : ∀ r ∈ [p], (s.chan c).sw.out ≠ .flash r := fun r hr e => by
        obtain rfl := List.mem_singleton.1 hr
        exact hp (OutState.flash.inj (uses.symm.trans e) ▸ hl)
      rw [k.users c q hl uses', h.others c ne, h.frame]; rfl
  others c unused := by
    rw [k.others c fun q hq => by rw [h.out]; exact unused q (List.mem_cons_of_mem _ hq)]
    exact h.others c fun q hq => by obtain rfl := List.mem_singleton.1 hq; exact unused q List.mem_cons_self

theorem restarts_foldl : ∀ (l : List Pattern) (s : State), l.Nodup → Restarts l s (l.foldl State.startOnPhase s)
  | [], s, _ => .nil s
  | p :: l, s, nodup => by
    obtain ⟨hp, nodup⟩ := List.nodup_cons.1 nodup
    exact .cons hp (s.startOnPhase_restarts p) (restarts_foldl l _ nodup)

/-! ### The mask of the reply (R138) -/

/-- The mask of the patterns that a test picks. -/
def patternMask (f : Pattern → Bool) : Nat := ((allPatterns.filter f).map fun p => 2 ^ p.val).sum

theorem patternMask_eq (f : Pattern → Bool) :
    patternMask f = (f 0).toNat + 2 * (f 1).toNat + 4 * (f 2).toNat + 8 * (f 3).toNat := by
  have picked : ∀ l : List Pattern,
      ((l.filter f).map fun p => 2 ^ p.val).sum = (l.map fun p => 2 ^ p.val * (f p).toNat).sum := by
    intro l
    induction l with
    | nil => rfl
    | cons p l ih => cases h : f p <;> simp [h, ih]
  simp [patternMask, picked, allPatterns, Nat.add_assoc]

theorem patternMask_le (f : Pattern → Bool) : patternMask f ≤ 15 := by
  have bound : ∀ a b c d : Bool, a.toNat + 2 * b.toNat + 4 * c.toNat + 8 * d.toNat ≤ 15 := by decide
  rw [patternMask_eq]
  exact bound _ _ _ _

theorem testBit_patternMask (f : Pattern → Bool) (p : Pattern) : (patternMask f).testBit p.val = f p := by
  have bits : ∀ a b c d : Bool, ∀ q : Pattern,
      (a.toNat + 2 * b.toNat + 4 * c.toNat + 8 * d.toNat).testBit q.val = ![a, b, c, d] q := by decide
  rw [patternMask_eq, bits]
  fin_cases p <;> rfl

/-! ### The command -/

/-- The pattern is named by the mask and runs (R138). -/
def State.restarted (s : State) (mask : Nat) (p : Pattern) : Bool := mask.testBit p.val && s.patternRuns p

theorem State.restarted_iff (s : State) (mask : Nat) (p : Pattern) :
    s.restarted mask p = true ↔ mask.testBit p.val = true ∧ s.gens[p].state ≠ .stopped := by
  simp [State.restarted, State.patternRuns]

theorem mem_allPatterns (p : Pattern) : p ∈ allPatterns := by revert p; decide

theorem State.flashSync_of_gt {mask : Nat} (h : 15 < mask) (src : NetSource) (s : State) :
    State.flashSync mask src s = ⟨s, answerRange⟩ := by
  simp [State.flashSync, h]

theorem State.flashSync_of_le {mask : Nat} (h : mask ≤ 15) (src : NetSource) (s : State) :
    State.flashSync mask src s = ⟨(allPatterns.filter (s.restarted mask)).foldl State.startOnPhase s,
      answerOk [patternMask (s.restarted mask)]⟩ := by
  rw [State.flashSync, if_neg (Nat.not_lt.2 h)]; rfl

/-- FLASH_SYNC taken is the answer of the switch controller with its REPLY placed. -/
theorem exec_flashSync_taken {s : State} {rx : RxHeader} {src : NetSource} (h : s.Takes rx src) (args : Vector Byte 7) :
    exec (.flashSync rx args) s = .next ((State.flashSync args[0].toNat src s).finish 6 src) :=
  congrArg Host.Outcome.next (State.takeCommand_taken h 6 _)

/-- Settles O35: the restarts of the named running patterns, one after the other, and the mask of them in the reply. -/
theorem flashSyncRestartsPatterns : Obligations.FlashSyncRestartsPatterns := by
  intro s rx args src taken mask named
  have exec_eq := exec_flashSync_taken taken args
  refine ⟨fun big => ?_, fun small => ?_⟩
  · rw [exec_eq, State.flashSync_of_gt big]
    exact congrArg Host.Outcome.next (Taken.finish_some s .range [] (by decide) src)
  · have mem (p : Pattern) : p ∈ allPatterns.filter (s.restarted mask) ↔ named p := by
      rw [List.mem_filter, State.restarted_iff]
      exact and_iff_right (mem_allPatterns p)
    obtain ⟨frame, gens, users, others⟩ :=
      restarts_foldl (allPatterns.filter (s.restarted mask)) s (List.Nodup.filter _ (by decide))
    refine ⟨(allPatterns.filter (s.restarted mask)).foldl State.startOnPhase s, patternMask (s.restarted mask),
      ?_, frame, patternMask_le _, fun p => ?_, fun p => ⟨fun hp => ?_, fun hp => ?_⟩,
      fun c => ⟨fun p uses hp => ?_, fun unused => ?_⟩⟩
    · rw [exec_eq, State.flashSync_of_le small]
      exact congrArg Host.Outcome.next (Taken.finish_some _ .ok _ (by decide) src)
    · rw [testBit_patternMask]; exact s.restarted_iff mask p
    · rw [gens, if_pos ((mem p).2 hp)]; rfl
    · rw [gens, if_neg (mt (mem p).1 hp)]
    · exact users c p ((mem p).2 hp) uses
    · exact others c fun p hp uses => unused p uses ((mem p).1 hp)

end Sys2Proof.Machine
end

section
/-! SUPPORT. CLEAR_EMERGENCY and CLEAR_FAULTS: the answer of the line inputs in each row of R190, what clearing the latch
evaluates, and what CLEAR_FAULTS leaves of the fault list. -/

namespace Sys2Proof.Machine

/-! ### CLEAR_EMERGENCY (R164, R190) -/

theorem State.lacksService_iff (s : State) (src : NetSource) :
    s.lacksService src = true ↔ src = .service ∧ s.lines.svc.active = false := by
  simp [State.lacksService]

@[simp] theorem evaluateAll_lines (s : State) : s.evaluateAll.lines = s.lines := by rw [evaluateAll_frame]
@[simp] theorem evaluateAll_latch (s : State) : s.evaluateAll.latch = s.latch := by rw [evaluateAll_frame]

/-- The latch clear and EMERGENCY ended, then all channels evaluated (R164). -/
theorem State.clearLatch_evaluatesTo (s : State) :
    ({ s with latch := false, faults := s.faults.finish s.now .emergency } : State).EvaluatesTo s.clearLatch allChannels :=
  evaluateEach_evaluatesTo _ allChannels

theorem State.emergencyItems_clearLatch (s : State) : s.clearLatch.emergencyItems = [0, flagBit s.lines.emg.active] := by
  simp [State.emergencyItems, State.clearLatch, State.finish, flagBit]

theorem State.clearEmergency_of_lacks {s : State} {src : NetSource} (lacks : s.lacksService src = true) :
    State.clearEmergency src s = ⟨s, some ⟨.notPermitted, s.emergencyItems⟩⟩ := if_pos lacks

section
variable {s : State} {src : NetSource}

theorem State.clearEmergency_of_active (permitted : ¬ s.lacksService src = true) (active : s.lines.emg.active = true) :
    State.clearEmergency src s = ⟨s, some ⟨.condition, s.emergencyItems⟩⟩ := by
  rw [State.clearEmergency, if_neg permitted, if_pos active]

/-- With EMG INACTIVE the answer is OK, and only a set latch is acted on. -/
theorem State.clearEmergency_of_inactive (permitted : ¬ s.lacksService src = true)
    (inactive : s.lines.emg.active = false) :
    State.clearEmergency src s =
      ⟨if s.latch then s.clearLatch else s, answerOk (if s.latch then s.clearLatch else s).emergencyItems⟩ := by
  rw [State.clearEmergency, if_neg permitted, if_neg (by simp [inactive])]

end

/-- CLEAR_EMERGENCY taken is the answer of the line inputs with its REPLY placed. -/
theorem exec_clearEmergency_taken {s : State} {rx : RxHeader} {src : NetSource} (h : s.Takes rx src)
    (args : Vector Byte 7) :
    exec (.clearEmergency rx args) s = .next ((State.clearEmergency src s).finish 3 src) :=
  congrArg Host.Outcome.next (State.takeCommand_taken h 3 _)

/-! ### CLEAR_FAULTS (R176, R191) -/

/-- CLEAR_FAULTS taken is the answer of the fault list with its REPLY placed. -/
theorem exec_clearFaults_taken {s : State} {rx : RxHeader} {src : NetSource} (h : s.Takes rx src)
    (args : Vector Byte 7) :
    exec (.clearFaults rx args) s = .next ((State.clearFaults src s).finish 4 src) :=
  congrArg Host.Outcome.next (State.takeCommand_taken h 4 _)

/-- The list after CLEAR_FAULTS: its ACTIVE records in their order, the flag clear, and these as what reports of the same
moment find (R176, R177). -/
theorem FaultList.clear_eq (l : FaultList) (t : Moment) :
    l.clear t =
      { l with
        records := l.records.filter FaultRecord.active
        overflow := false
        together := ⟨t, ⟨l.records.filter FaultRecord.active, false⟩, []⟩ } := rfl

/-- The answer to CLEAR_FAULTS: the numbers of records removed and remaining, and the flag clear (R191). -/
theorem State.clearFaults_eq (s : State) (src : NetSource) :
    State.clearFaults src s =
      ⟨{ s with faults := s.faults.clear s.now },
        answerOk [s.faults.records.length - (s.faults.records.filter FaultRecord.active).length,
          (s.faults.records.filter FaultRecord.active).length, 0]⟩ := by
  rw [State.clearFaults, FaultList.clear_eq]
  rfl

/-- Settles O52: CLEAR_EMERGENCY by the rows of R190, then CLEAR_FAULTS. -/
theorem emergencyAndFaultsCleared : Obligations.EmergencyAndFaultsCleared := by
  intro s rx args src taken lacks bit kept
  have emergency_eq := exec_clearEmergency_taken taken args
  have permitted (h : ¬ lacks) : ¬ s.lacksService src = true := mt (s.lacksService_iff src).1 h
  refine ⟨fun h => ?_, fun h active => ?_, fun h inactive unlatched => ?_, fun h inactive latched => ?_,
    ⟨s.now, ⟨kept, false⟩, []⟩, ?_⟩
  · rw [emergency_eq, State.clearEmergency_of_lacks ((s.lacksService_iff src).2 h)]
    exact congrArg Host.Outcome.next (Taken.finish_some s .notPermitted _ (by decide) src)
  · have items : s.emergencyItems = [bit s.latch, 1] := by rw [State.emergencyItems, active]; rfl
    rw [emergency_eq, State.clearEmergency_of_active (permitted h) active, items]
    exact congrArg Host.Outcome.next (Taken.finish_some s .condition _ (by decide) src)
  · have items : s.emergencyItems = [0, 0] := by rw [State.emergencyItems, unlatched, inactive]; rfl
    rw [emergency_eq, State.clearEmergency_of_inactive (permitted h) inactive, if_neg (by simp [unlatched]), items]
    exact congrArg Host.Outcome.next (Taken.finish_some s .ok _ (by decide) src)
  · have items : s.clearLatch.emergencyItems = [0, 0] := by rw [State.emergencyItems_clearLatch, inactive]; rfl
    refine ⟨s.clearLatch, ?_, s.clearLatch_evaluatesTo⟩
    rw [emergency_eq, State.clearEmergency_of_inactive (permitted h) inactive, if_pos latched, items]
    exact congrArg Host.Outcome.next (Taken.finish_some s.clearLatch .ok _ (by decide) src)
  · rw [exec_clearFaults_taken taken args, State.clearFaults_eq, FaultList.clear_eq]
    exact congrArg Host.Outcome.next (Taken.finish_some _ .ok _ (by decide) src)

end Sys2Proof.Machine
end

section
/-! SUPPORT. What every command keeps beside the channels: the command queue, the working configuration, the fault list,
the supervisor and the ports. An update inside the part leaves command queue and ports as they are (Internal); a
command keeps all five in order (Orderly). -/

namespace Sys2Proof.Machine

/-! ### Updates inside the part -/

/-- An update inside the part: command queue, ports and held replies are left, and configuration, fault list and
supervisor stay in order. -/
structure Internal (s t : State) : Prop where
  pending : t.pending = s.pending
  portA : t.portA = s.portA
  portB : t.portB = s.portB
  heldStore : t.heldStore = s.heldStore
  heldCommand : t.heldCommand = s.heldCommand
  config : s.ConfigOk → t.ConfigOk
  faults : s.faults.Ok → t.faults.Ok
  supply : s.sup.Ok → t.sup.Ok

theorem Internal.refl (s : State) : Internal s s := ⟨rfl, rfl, rfl, rfl, rfl, id, id, id⟩

theorem Internal.trans {s t u : State} (h : Internal s t) (k : Internal t u) : Internal s u where
  pending := k.pending.trans h.pending
  portA := k.portA.trans h.portA
  portB := k.portB.trans h.portB
  heldStore := k.heldStore.trans h.heldStore
  heldCommand := k.heldCommand.trans h.heldCommand
  config := k.config ∘ h.config
  faults := k.faults ∘ h.faults
  supply := k.supply ∘ h.supply

theorem Internal.ite {s a b : State} {P : Prop} [Decidable P] (ha : Internal s a) (hb : Internal s b) :
    Internal s (if P then a else b) := by
  split
  · exact ha
  · exact hb

theorem Internal.foldl {α : Type} {f : State → α → State} (h : ∀ s a, Internal s (f s a)) :
    ∀ (l : List α) (s : State), Internal s (l.foldl f s)
  | [], s => .refl s
  | a :: l, s => (h s a).trans (Internal.foldl h l (f s a))

/-- An update that writes none of the blocks concerned. -/
theorem internal_frame (s : State) (chans lapsed graceStart scan queue gens lines latch now) :
    Internal s { s with
      chans := chans, lapsed := lapsed, graceStart := graceStart, scan := scan, queue := queue, gens := gens,
      lines := lines, latch := latch, now := now } := ⟨rfl, rfl, rfl, rfl, rfl, id, id, id⟩

theorem State.SameButChannels.internal {s t : State} (h : s.SameButChannels t) : Internal s t := by
  rw [h]; exact internal_frame s ..

theorem internal_setChan (s : State) (c : Channel) (x : ChannelState) : Internal s (s.setChan c x) := internal_frame s ..

theorem internal_advanceTo (s : State) (t : Moment) : Internal s (s.advanceTo t) := internal_frame s ..

theorem internal_setLine (s : State) (l : Line) (r : LineRecord) : Internal s (s.setLine l r) := by
  cases l <;> exact internal_frame s ..

theorem internal_report (s : State) (rs : List Report) : Internal s (s.report rs) :=
  ⟨rfl, rfl, rfl, rfl, rfl, id, fun h => h.report _ _, id⟩

theorem internal_occur (s : State) (k : FaultKey) : Internal s (s.occur k) := internal_report s [.occur k]

theorem internal_finish (s : State) (k : FaultKey) : Internal s (s.finish k) := internal_report s [.finish k]

/-- A new supervisor record in order. -/
theorem internal_sup {s : State} {v : Supervisor} (h : s.sup.Ok → v.Ok) : Internal s { s with sup := v } :=
  ⟨rfl, rfl, rfl, rfl, rfl, id, id, h⟩

/-! ### Evaluations and hand-overs -/

theorem internal_evaluateEach (s : State) (l : List Channel) : Internal s (s.evaluateEach l) :=
  (evaluateEach_evaluated s l).1.internal

theorem internal_evaluate (s : State) (c : Channel) : Internal s (s.evaluate c) := internal_evaluateEach s [c]

theorem internal_evaluateAll (s : State) : Internal s s.evaluateAll := internal_evaluateEach s _

theorem internal_evaluateChanged (s before : State) : Internal s (s.evaluateChanged before) := internal_evaluateEach s _

theorem internal_admitQueued (s : State) : Internal s s.admitQueued := (touches_admit s 0).frame.internal

theorem internal_startPeriod (s : State) (c : Channel) (g : Staged) : Internal s (s.startPeriod c g) :=
  (touches_startPeriod s c g).frame.internal

theorem internal_enterRunning (s : State) (c : Channel) (g : Granted) : Internal s (s.enterRunning c g) :=
  (touches_enterRunning s c g).frame.internal

theorem internal_startOnPhase (s : State) (p : Pattern) : Internal s (s.startOnPhase p) := by
  rw [(s.startOnPhase_restarts p).frame]; exact internal_frame s ..

/-! ### The demand table -/

theorem internal_logCause (s : State) (c : Channel) (k : LimitCause) : Internal s (s.logCause c k) := internal_setChan s ..

theorem internal_removeEntry (s : State) (src : NetSource) (c : Channel) : Internal s (s.removeEntry src c) :=
  internal_setChan s ..

theorem internal_clearLapsed (s : State) (src : NetSource) : Internal s (s.clearLapsed src) := by
  unfold State.clearLapsed
  exact .ite ((internal_frame s ..).trans (internal_finish _ _)) (.refl s)

theorem internal_takePulse (s : State) (src : NetSource) (c : Channel) (d : DemandItem) : Internal s (s.takePulse src c d) := by
  unfold State.takePulse
  split
  · exact .ite (internal_setChan s ..) (internal_setChan s ..)
  · exact internal_setChan s ..

theorem internal_takeCode (s : State) (src : NetSource) (c : Channel) (d : DemandItem) : Internal s (s.takeCode src c d) := by
  refine .ite (internal_logCause s ..) ?_
  unfold State.applyCode
  split
  · exact .refl s
  case h_7 => exact internal_takePulse s ..
  all_goals exact internal_setChan s ..

theorem internal_takeDemand (s : State) (src : NetSource) (g : Fin 4) (data : Vector Byte 8) :
    Internal s (s.takeDemand src g data) := by
  refine (internal_clearLapsed s src).trans (.ite ?_ ?_)
  · exact .foldl (fun t i => .ite (.refl t) (internal_logCause t ..)) _ _
  · exact (Internal.foldl (fun t i => internal_takeCode t ..) _ _).trans (internal_evaluateChanged _ _)

theorem internal_lapseEntry (s : State) (src : NetSource) (c : Channel) : Internal s (s.lapseEntry src c) := by
  have fallback (t : State) : Internal t (t.insertFallback c) := by
    unfold State.insertFallback
    refine .ite (.refl t) ?_
    split
    · exact .refl t
    · exact internal_setChan t ..
  exact (((internal_removeEntry s src c).trans (internal_logCause _ c .lapse)).trans (internal_frame _ ..)).trans (fallback _)

theorem internal_lapseAll (s : State) (due : Moment) : Internal s (s.lapseAll due) := by
  refine ((Internal.foldl (fun t c => ?_) _ _).trans (internal_report _ _)).trans (internal_evaluateEach _ _)
  exact .foldl (fun u src => internal_lapseEntry u ..) _ _

theorem internal_endGrace (s : State) : Internal s s.endGrace := by
  refine .trans (t := { s with graceStart := none }) (internal_frame s ..) (.trans ?_ (internal_evaluateChanged _ _))
  exact .foldl (fun t c => .ite (internal_setChan t ..) (.refl t)) _ _

theorem internal_removeService (s : State) : Internal s s.removeService :=
  (Internal.foldl (fun t _ => internal_removeEntry t ..) _ _).trans (internal_evaluateChanged _ _)

theorem internal_recomputeLines (s : State) (concerned : Channel → Bool) : Internal s (s.recomputeLines concerned) :=
  (Internal.foldl (fun t _ => internal_setChan t ..) _ _).trans (internal_evaluateChanged _ _)

/-! ### The supervisor -/

theorem heatStep_le (k p h : Nat) : heatStep k p h ≤ heatMax := Nat.min_le_left _ _

/-- The highest level below a bound lies below it. -/
theorem Runs.highestBelow_lt (r : Runs) (t : Moment) : ∀ m, 0 < m → r.highestBelow t m < m
  | 1, _ => by unfold Runs.highestBelow Runs.highestBelow; split <;> omega
  | m + 2, _ => by
    unfold Runs.highestBelow
    split
    · omega
    · exact (Runs.highestBelow_lt r t (m + 1) (by omega)).trans (by omega)

/-- A supervisor whose levels, floors and heat are in order, once L is recomputed. -/
theorem Supervisor.Ok.recomputed {v : Supervisor} (voltage : v.voltageLevel ≤ 3) (thermal : v.thermalLevel ≤ 3)
    (floors : ∀ src f, v.floors.get src = some f → 1 ≤ f.level ∧ f.level ≤ 3) (heat : v.heat ≤ heatMax) :
    Supervisor.Ok { v with level := v.effective } := ⟨rfl, voltage, thermal, floors, heat⟩

/-- The hold is no component of L. -/
theorem Supervisor.Ok.testHold {v : Supervisor} (h : v.Ok) (t : Moment) : (v.testHold t).Ok := by
  unfold Supervisor.testHold
  split <;> split <;> exact h

theorem Supervisor.fall_voltageLevel_le (v : Supervisor) (t : Moment) : (v.fall t).voltageLevel ≤ v.voltageLevel := by
  unfold Supervisor.fall
  split
  · next h => exact (v.low.highestBelow_lt t _ h.1).le
  · exact le_rfl

/-- A fall of the voltage level writes nothing else. -/
theorem Supervisor.fall_eq (v : Supervisor) (t : Moment) : v.fall t = { v with voltageLevel := (v.fall t).voltageLevel } := by
  unfold Supervisor.fall
  split <;> rfl

theorem internal_evaluateLevel (s before : State) : Internal s (s.evaluateLevel before) :=
  .ite (.refl s) (internal_evaluateAll s)

/-- The levels a zone sample leaves are in order before the hold is tested. -/
theorem Supervisor.Ok.sampled {v : Supervisor} (h : v.Ok) (z : Zone) (t : Moment) (volts : Nat) :
    let u := ((v.sample z t volts).rise t).fall t
    Supervisor.Ok { u with level := u.effective } := by
  obtain ⟨-, voltage, thermal, floors, heat⟩ := h
  have risen : ((v.sample z t volts).rise t).voltageLevel ≤ 3 := by
    have below := (v.sample z t volts).low.highestBelow_lt t 4 (by decide)
    exact max_le voltage (by omega)
  refine .recomputed ((Supervisor.fall_voltageLevel_le _ _).trans risen) ?_ ?_ ?_ <;> rw [Supervisor.fall_eq]
  · exact thermal
  · exact floors
  · exact heat

theorem internal_deliverZone (s : State) (volts : Nat) : Internal s (s.deliverZone volts) := by
  refine (((internal_sup fun h => ?_).trans (internal_report _ _)).trans (internal_evaluateLevel _ _)).trans
    (.ite (.refl _) (internal_evaluateAll _))
  exact (h.sampled s.cfg.zone s.now volts).testHold s.now

theorem internal_setFloor {s : State} {src : NetSource} {f : Option Floor}
    (hf : ∀ x, f = some x → 1 ≤ x.level ∧ x.level ≤ 3) : Internal s (s.setFloor src f) := by
  refine .trans (internal_sup fun h => ?_) (internal_evaluateLevel _ _)
  obtain ⟨-, voltage, thermal, floors, heat⟩ := h
  refine .recomputed (v := { s.sup with floors := s.sup.floors.set src f }) voltage thermal (fun x y hy => ?_) heat
  by_cases e : x = src
  · subst e; exact hf y (by simpa using hy)
  · exact floors x y (by simpa [PerSource.get_set_ne _ _ e] using hy)

theorem Supervisor.thermalAfter_le {v : Supervisor} (h : v.thermalLevel ≤ 3) (z : Zone) (t : Moment) :
    v.thermalAfter z t ≤ 3 := by
  unfold Supervisor.thermalAfter
  dsimp only
  split
  · split <;> omega
  · split
    · omega
    · split <;> omega

/-- A comparison of a feeder fuse tick writes thermal level and dwell start only. -/
theorem Supervisor.compare_eq (v : Supervisor) (z : Zone) (t : Moment) :
    v.compare z t = { v with thermalLevel := v.thermalAfter z t, dwellStart := (v.compare z t).dwellStart } := by
  unfold Supervisor.compare
  split
  · next h => rw [h]
  · rfl

theorem floorOf_level {level duration : Nat} {t : Moment} {f : Floor} (h : floorOf level duration t = some f) :
    1 ≤ f.level ∧ f.level ≤ 3 := by
  unfold floorOf at h
  split at h
  · simp at h
  · obtain rfl := Option.some.inj h
    dsimp only
    omega

/-! ### The lines -/

theorem internal_setLatch (s : State) : Internal s s.setLatch :=
  ((internal_frame s ..).trans (internal_occur _ _)).trans (internal_evaluateAll _)

theorem internal_endServiceFloor (s : State) : Internal s s.endServiceFloor := by
  unfold State.endServiceFloor
  split
  · exact .refl s
  · exact internal_setFloor nofun

theorem internal_handOn (s : State) (l : Line) (floorFirst : Bool) : Internal s (s.handOn l floorFirst) := by
  unfold State.handOn
  split
  · exact internal_recomputeLines _ _
  · exact .ite (internal_setLatch _) (.refl _)
  · refine .ite (.refl _) (.ite ?_ ?_)
    · exact (internal_endServiceFloor _).trans (internal_removeService _)
    · exact (internal_removeService _).trans (internal_endServiceFloor _)

theorem internal_settle (s : State) (l : Line) (floorFirst : Bool) : Internal s (s.settle l floorFirst) :=
  (internal_setLine s l _).trans (internal_handOn _ l floorFirst)

theorem internal_reconsider (s : State) (l : Line) : Internal s (s.reconsider l) :=
  .ite (internal_setLine s l _) (.ite (internal_settle s l false) (internal_setLine s l _))

/-! ### Protection and scan -/

theorem internal_withProt (s : State) (c : Channel) (f : ProtRecord → ProtRecord) : Internal s (s.withProt c f) :=
  internal_setChan s ..

theorem internal_trip (s : State) (c : Channel) (k : TripKind) : Internal s (s.trip c k) :=
  .ite ((internal_withProt s ..).trans (internal_occur _ _)) ((internal_withProt s ..).trans (internal_report _ _))

theorem internal_compareLevels (s : State) (c : Channel) : Internal s (s.compareLevels c) := by
  have exit : Internal s (s.exitTrip c) := by unfold State.exitTrip; exact internal_withProt s ..
  unfold State.compareLevels
  dsimp only
  split
  · exact .ite (internal_trip s ..) (.ite (internal_withProt s ..) (.refl s))
  · exact .ite (internal_trip s ..) (.ite (internal_withProt s ..) (.refl s))
  · exact .ite exit (.refl s)
  · exact .ite exit (.refl s)
  · exact .refl s
  · exact .refl s

theorem internal_evaluateMoved (s before : State) (c : Channel) : Internal s (s.evaluateMoved before c) :=
  .ite (.refl s) (internal_evaluate s c)

theorem internal_flag (s : State) (c : Channel) (f : ProtRecord → ProtRecord) (k : FaultKey) :
    Internal s ((s.withProt c f).finish k) ∧ Internal s ((s.withProt c f).occur k) :=
  ⟨(internal_withProt s ..).trans (internal_finish _ _), (internal_withProt s ..).trans (internal_occur _ _)⟩

theorem internal_endOpenLoadOn (s : State) (c : Channel) : Internal s (s.endOpenLoadOn c) :=
  .ite (internal_flag s ..).1 (.refl s)

theorem internal_deliverCurrent (s : State) (c : Channel) (current : Nat) (saturated : Bool) :
    Internal s (s.deliverCurrent c current saturated) := by
  refine .ite (.ite ((internal_trip s ..).trans (internal_evaluate _ c)) (.ite (.ite (internal_endOpenLoadOn s c) ?_) (.refl s))) (.refl s)
  exact .ite (.ite ((internal_withProt s ..).trans (internal_flag _ ..).2) (internal_withProt s ..))
    ((internal_withProt s ..).trans (internal_endOpenLoadOn _ c))

theorem internal_deliverVoltage (s : State) (c : Channel) (wasOff : Bool) (voltage supply : Nat) :
    Internal s (s.deliverVoltage c wasOff voltage supply) := by
  refine .ite (((internal_withProt s ..).trans (t := s.withProt c _) (.ite ?_ (.refl _))).trans
    ((Internal.ite (internal_flag _ ..).1 (.refl _)).trans (.ite (internal_flag _ ..).1 (.refl _)))) (.refl s)
  exact .ite (.ite (.refl _) (internal_flag _ ..).2) (.ite (.refl _) (internal_flag _ ..).2)

theorem internal_deliver (r s : State) (d : Delivery) : Internal s (r.deliver s d) := by
  unfold State.deliver
  split
  · exact internal_deliverZone s _
  · dsimp only
    split
    · exact internal_deliverCurrent s ..
    · exact internal_deliverVoltage s ..
    · exact .refl s

theorem internal_clearProtection (s : State) (c : Channel) : Internal s (s.clearProtection c) := by
  unfold State.clearProtection
  dsimp only
  split
  · exact (internal_withProt s ..).trans (internal_flag _ ..).1
  all_goals exact internal_withProt s ..

end Sys2Proof.Machine
end

section
/-! SUPPORT. The working configuration field by field: what a write of one field leaves of every other, and that a write
in range and in relation leaves the configuration valid. -/

namespace Sys2Proof

/-! ### Reading after a write (R1, R12) -/

theorem Profile.get_set (p : Profile) (f g : ProfileField) (v : Nat) :
    (p.set f v).get g = if g = f then v else p.get g := by
  split
  · next h => subst h; cases g <;> rfl
  · next h => cases f <;> cases g <;> first | rfl | exact absurd rfl h

theorem Zone.get_set (z : Zone) (f g : ZoneField) (v : Nat) : (z.set f v).get g = if g = f then v else z.get g := by
  split
  · next h => subst h; cases g <;> rfl
  · next h => cases f <;> cases g <;> first | rfl | exact absurd rfl h

theorem PatternTimes.get_set (t : PatternTimes) (f g : PatternField) (v : Nat) :
    (t.set f v).get g = if g = f then v else t.get g := by
  cases f <;> cases g <;> rfl

theorem LineSettings.get_set (l : LineSettings) (f g : LineField) (v : Nat) :
    (l.set f v).get g = if g = f then v else l.get g := by
  split
  · next h => subst h; cases g <;> rfl
  · next h => cases f <;> cases g <;> first | rfl | exact absurd rfl h

theorem vector_set_get {α : Type} {n : Nat} (v : Vector α n) (i j : Fin n) (x : α) :
    (v.set i x)[j] = if j = i then x else v[j] := by
  simp [Vector.getElem_set, Fin.ext_iff, eq_comm]

/-- A write changes the named field and no other (R12). -/
theorem WorkingConfig.read_write (g : WorkingConfig) (n m : ConfigField) (v : Nat) :
    (g.write n v).read m = if m = n then v else g.read m := by
  cases n with
  | profile c f =>
    cases m with
    | profile d e =>
      simp only [WorkingConfig.write, WorkingConfig.read, vector_set_get, ConfigField.profile.injEq]
      by_cases h : d = c
      · subst h; simp [Profile.get_set]
      · simp [h]
    | _ => rfl
  | zone f =>
    cases m with
    | zone e => simp [WorkingConfig.write, WorkingConfig.read, Zone.get_set]
    | _ => rfl
  | lapse s =>
    cases m with
    | lapse r => cases s <;> cases r <;> rfl
    | _ => rfl
  | pattern p f =>
    cases m with
    | pattern q e =>
      simp only [WorkingConfig.write, WorkingConfig.read, vector_set_get, ConfigField.pattern.injEq]
      by_cases h : q = p
      · subst h; simp [PatternTimes.get_set]
      · simp [h]
    | _ => rfl
  | line i f =>
    cases m with
    | line j e =>
      simp only [WorkingConfig.write, WorkingConfig.read, vector_set_get, ConfigField.line.injEq]
      by_cases h : j = i
      · subst h; simp [LineSettings.get_set]
      · simp [h]
    | _ => rfl

/-! ### Validity, field by field (R2) -/

theorem mem_profileFields (f : ProfileField) : f ∈ profileFields := by cases f <;> decide

theorem mem_zoneFields (f : ZoneField) : f ∈ zoneFields := by cases f <;> decide

theorem mem_patternFields (f : PatternField) : f ∈ patternFields := by cases f <;> decide

theorem mem_lineFields (f : LineField) : f ∈ lineFields := by cases f <;> decide

/-- A configuration is valid if every field is in range and the relations of R2 hold. -/
theorem WorkingConfig.valid_iff (g : WorkingConfig) :
    g.valid = true ↔ (∀ n : ConfigField, n.inRange (g.read n) = true) ∧ (∀ c : Channel, g.profile[c].related = true)
      ∧ g.zone.related = true := by
  have fields : (∀ n : ConfigField, n.inRange (g.read n) = true) ↔
      (∀ c f, (ConfigField.profile c f).inRange (g.profile[c].get f) = true)
      ∧ (∀ f, (ConfigField.zone f).inRange (g.zone.get f) = true)
      ∧ (∀ s, (ConfigField.lapse s).inRange (g.lapse.get s) = true)
      ∧ (∀ p f, (ConfigField.pattern p f).inRange (g.pattern[p].get f) = true)
      ∧ (∀ i f, (ConfigField.line i f).inRange (g.line[i].get f) = true) :=
    ⟨fun h => ⟨fun c f => h (.profile c f), fun f => h (.zone f), fun s => h (.lapse s), fun p f => h (.pattern p f),
      fun i f => h (.line i f)⟩, fun ⟨h1, h2, h3, h4, h5⟩ n => by
        cases n with
        | profile c f => exact h1 c f
        | zone f => exact h2 f
        | lapse s => exact h3 s
        | pattern p f => exact h4 p f
        | line i f => exact h5 i f⟩
  rw [fields]
  simp only [WorkingConfig.valid, Profile.valid, Zone.valid, Bool.and_eq_true, List.all_eq_true,
    Machine.mem_allChannels, Machine.mem_allNetSources, Machine.mem_allPatterns, mem_profileFields, mem_zoneFields,
    mem_patternFields, mem_lineFields, true_imp_iff, ConfigField.inRange, ConfigField.range, forall_and]
  tauto

theorem StoredImage.load_valid (im : StoredImage) : im.load.valid = true := by
  unfold StoredImage.load
  split
  · next h => exact (Bool.and_eq_true_iff.1 h).2
  · decide

/-- The warm and the trip level of a profile are written by their own fields only. -/
theorem Profile.related_set {p : Profile} {f : ProfileField} (v : Nat) (warm : f ≠ .warm) (trip : f ≠ .trip) :
    (p.set f v).related = p.related := by
  cases f <;> first | rfl | exact absurd rfl warm | exact absurd rfl trip

theorem Zone.related_set {z : Zone} {f : ZoneField} (v : Nat) (lv1 : f ≠ .lv1) (lv2 : f ≠ .lv2) (lv3 : f ≠ .lv3) :
    (z.set f v).related = z.related := by
  cases f <;> first | rfl | exact absurd rfl lv1 | exact absurd rfl lv2 | exact absurd rfl lv3

theorem WorkingConfig.profile_write (g : WorkingConfig) (c d : Channel) (f : ProfileField) (v : Nat) :
    (g.write (.profile c f) v).profile[d] = if d = c then g.profile[c].set f v else g.profile[d] := vector_set_get ..

theorem WorkingConfig.profile_related_write {g : WorkingConfig} {n : ConfigField} {v : Nat} {c : Channel}
    (h : g.profile[c].related = true) (k : (g.write n v).relatedAt n = true) :
    (g.write n v).profile[c].related = true := by
  cases n with
  | profile d f =>
    by_cases e : c = d
    · subst e
      by_cases warm : f = .warm
      · subst warm; exact k
      · by_cases trip : f = .trip
        · subst trip; exact k
        · rw [profile_write, if_pos rfl, Profile.related_set v warm trip]; exact h
    · rw [profile_write, if_neg e]; exact h
  | _ => exact h

theorem WorkingConfig.zone_related_write {g : WorkingConfig} {n : ConfigField} {v : Nat}
    (h : g.zone.related = true) (k : (g.write n v).relatedAt n = true) : (g.write n v).zone.related = true := by
  cases n with
  | zone f => cases f <;> first | exact k | exact h
  | _ => exact h

/-- A write in range that keeps the relation it bears on leaves a valid configuration (R12). -/
theorem WorkingConfig.valid_write {g : WorkingConfig} {n : ConfigField} {v : Nat} (h : g.valid = true)
    (range : n.inRange v = true) (related : (g.write n v).relatedAt n = true) : (g.write n v).valid = true := by
  obtain ⟨inRange, profiles, zone⟩ := (valid_iff g).1 h
  refine (valid_iff _).2 ⟨fun m => ?_, fun c => profile_related_write (profiles c) related,
    zone_related_write zone related⟩
  rw [read_write]
  split
  · next e => rw [e]; exact range
  · exact inRange m

end Sys2Proof
end

section
/-! SUPPORT. What every command keeps in order beside the channels (R2, R142, R154, R170, R181, R203): one lemma for each
owner of a command and for each event of the ports and the resets, and the statements that follow. -/

namespace Sys2Proof.Machine

/-! ### The owners of the commands -/

theorem internal_release (s : State) (scope a m : Nat) (src : NetSource) : Internal s (State.release scope a m src s).state := by
  unfold State.release
  split
  · exact .refl s
  · exact (Internal.foldl (fun t _ => internal_removeEntry t ..) _ _).trans (internal_evaluateChanged _ _)

theorem internal_clear (s : State) (selector : Nat) (src : NetSource) : Internal s (State.clear selector src s).state := by
  unfold State.clear
  split
  · unfold State.clearOne
    split
    · exact (internal_clearProtection s _).trans (internal_evaluateMoved _ _ _)
    · exact .refl s
  · split
    · exact (Internal.foldl internal_clearProtection _ _).trans (internal_evaluateEach _ _)
    · exact .refl s

theorem internal_clearEmergency (s : State) (src : NetSource) : Internal s (State.clearEmergency src s).state := by
  unfold State.clearEmergency
  split
  · exact .refl s
  · split
    · exact .refl s
    · exact .ite (((internal_frame s ..).trans (internal_finish _ _)).trans (internal_evaluateAll _)) (.refl s)

/-- CLEAR_FAULTS keeps the list in order: records are only removed (R176). -/
theorem FaultList.Ok.clear {l : FaultList} (h : l.Ok) (t : Moment) : (l.clear t).Ok := by
  obtain ⟨⟨length, keys, records⟩, uptime, -, -⟩ := h
  refine FaultList.Ok.settle (l := { l with records := l.records.filter FaultRecord.active, overflow := false }) ⟨?_, ?_, fun r hr => ?_⟩ uptime t
  · exact (List.length_filter_le _ _).trans length
  · exact keys.sublist (List.filter_sublist.map _)
  · exact records r (List.mem_filter.1 hr).1

theorem internal_clearFaults (s : State) (src : NetSource) : Internal s (State.clearFaults src s).state :=
  ⟨rfl, rfl, rfl, rfl, rfl, id, fun h => h.clear _, id⟩

theorem internal_shedFloor (s : State) (level duration : Nat) (src : NetSource) :
    Internal s (State.shedFloor level duration src s).state := by
  unfold State.shedFloor
  split
  · exact .refl s
  · exact internal_setFloor fun _ => floorOf_level

theorem internal_flashSync (s : State) (mask : Nat) (src : NetSource) : Internal s (State.flashSync mask src s).state := by
  unfold State.flashSync
  split
  · exact .refl s
  · exact .foldl internal_startOnPhase _ _

theorem State.queryOf_state (items : State → Channel → List Nat) (n : Nat) (src : NetSource) (s : State) :
    (State.queryOf items n src s).state = s := by
  unfold State.queryOf; split <;> rfl

theorem State.queryEntry_state (n index : Nat) (src : NetSource) (s : State) : (State.queryEntry n index src s).state = s := by
  unfold State.queryEntry
  split
  · rfl
  · dsimp only; split <;> rfl

theorem State.queryZone_state (part : Nat) (src : NetSource) (s : State) : (State.queryZone part src s).state = s := by
  unfold State.queryZone; split <;> rfl

theorem State.readFault_state (index part : Nat) (src : NetSource) (s : State) : (State.readFault index part src s).state = s := by
  unfold State.readFault
  split
  · rfl
  · split <;> rfl

theorem State.configRead_state (table index number : Nat) (src : NetSource) (s : State) :
    (State.configRead table index number src s).state = s := by
  unfold State.configRead; split <;> rfl

theorem internal_readLimitLog (s : State) (selector flag : Nat) (src : NetSource) :
    Internal s (State.readLimitLog selector flag src s).state := by
  unfold State.readLimitLog
  split
  · exact .refl s
  · exact .ite (.foldl (fun t _ => internal_setChan t ..) _ _) (.refl s)

theorem internal_configStore (s : State) (src : NetSource) : Internal s (State.configStore src s).state := by
  unfold State.configStore
  split
  · exact .refl s
  · split
    · exact .refl s
    · exact ⟨rfl, rfl, rfl, rfl, rfl, id, id, id⟩

/-! ### CONFIG_WRITE -/

/-- What the checks of R12 have found where they pass: a named field in range, in relation, that may be written. -/
theorem State.checkWrite_ok {s : State} {src : NetSource} {n : Option ConfigField} {v : Nat}
    (h : s.checkWrite src n v = .ok) :
    ∃ m, n = some m ∧ m.inRange v = true ∧ (s.cfg.write m v).relatedAt m = true ∧ s.mayWrite m = true := by
  unfold State.checkWrite at h
  split at h
  · cases h
  split at h
  · cases h
  split at h
  · cases h
  · next m =>
    refine ⟨m, rfl, ?_⟩
    split at h
    · cases h
    split at h
    · cases h
    split at h
    · cases h
    simp_all

/-- CONFIG_WRITE changes nothing, or applies a write that the checks of R12 let pass. -/
theorem State.configWrite_state (table index number value : Nat) (src : NetSource) (s : State) :
    (State.configWrite table index number value src s).state = s
    ∨ ∃ n : ConfigField, n.inRange value = true ∧ (s.cfg.write n value).relatedAt n = true ∧ s.mayWrite n = true
      ∧ (State.configWrite table index number value src s).state = s.applyWrite n value := by
  unfold State.configWrite
  dsimp only
  split
  · next n hr hn =>
    obtain ⟨m, hm, range, related, may⟩ := State.checkWrite_ok hr
    obtain rfl := Option.some.inj (hn.symm.trans hm)
    exact .inr ⟨n, range, related, may, rfl⟩
  · exact .inl rfl

theorem internal_retestRuns (s : State) : Internal s s.retestRuns := by
  refine internal_sup fun h => ?_
  unfold Supervisor.retest
  split
  · exact h
  · exact h

/-- What a changed field does beside its value (R4 to R10, R146). -/
theorem internal_writeEffect (s : State) (n : ConfigField) (old : WorkingConfig) : Internal s (s.writeEffect n old) := by
  unfold State.writeEffect
  split
  · refine .trans ?_ (internal_evaluate _ _)
    unfold State.profileEffect
    split
    · exact internal_withProt s ..
    · exact internal_withProt s ..
    · exact internal_withProt s ..
    · exact .refl s
  · unfold State.zoneEffect
    split
    case h_4 => exact internal_admitQueued s
    case h_5 =>
      unfold State.testGrace
      split
      · exact .refl s
      · exact .ite (internal_endGrace s) (.refl s)
    any_goals exact internal_retestRuns s
    all_goals exact .refl s
  · exact .refl s
  · exact .refl s
  · unfold State.lineEffect
    split
    · exact internal_reconsider s _
    · unfold State.testDebounce
      split
      · exact .refl s
      · exact .ite (internal_settle s _ _) (.refl s)
    · exact internal_recomputeLines s _
    · exact internal_recomputeLines s _

theorem internal_applyWrite {s : State} {n : ConfigField} {v : Nat} (range : n.inRange v = true)
    (related : (s.cfg.write n v).relatedAt n = true) : Internal s (s.applyWrite n v) := by
  refine .ite ?_ (.trans (t := { s with cfg := s.cfg.write n v }) ?_ (internal_writeEffect _ _ _))
  · unfold State.rewriteEffect
    split
    · exact internal_evaluate s _
    all_goals exact .refl s
  · exact ⟨rfl, rfl, rfl, rfl, rfl, fun h => WorkingConfig.valid_write h range related, id, id⟩

theorem internal_configWrite (s : State) (table index number value : Nat) (src : NetSource) :
    Internal s (State.configWrite table index number value src s).state := by
  rcases State.configWrite_state table index number value src s with h | ⟨n, range, related, -, h⟩
  · rw [h]; exact .refl s
  · rw [h]; exact internal_applyWrite range related

/-! ### What a command keeps in order -/

/-- What every command keeps: the command queue as it is, and configuration, fault list, supervisor and ports in order. -/
structure Orderly (s t : State) : Prop where
  pending : t.pending = s.pending
  config : s.ConfigOk → t.ConfigOk
  faults : s.faults.Ok → t.faults.Ok
  supply : s.sup.Ok → t.sup.Ok
  ports : s.PortsOk → t.PortsOk

theorem Orderly.refl (s : State) : Orderly s s := ⟨rfl, id, id, id, id⟩

theorem Orderly.trans {s t u : State} (h : Orderly s t) (k : Orderly t u) : Orderly s u where
  pending := k.pending.trans h.pending
  config := k.config ∘ h.config
  faults := k.faults ∘ h.faults
  supply := k.supply ∘ h.supply
  ports := k.ports ∘ h.ports

theorem Orderly.ite {s a b : State} {P : Prop} [Decidable P] (ha : P → Orderly s a) (hb : ¬P → Orderly s b) :
    Orderly s (if P then a else b) := by
  split
  · next h => exact ha h
  · next h => exact hb h

theorem Internal.port {s t : State} (h : Internal s t) (p : Port) : t.port p = s.port p := by
  cases p <;> [exact h.portA; exact h.portB]

theorem Internal.portsOk {s t : State} (h : Internal s t) (ok : s.PortsOk) : t.PortsOk := by
  simpa only [State.PortsOk, h.port, h.portA, h.heldStore, h.heldCommand] using ok

theorem Internal.orderly {s t : State} (h : Internal s t) : Orderly s t := ⟨h.pending, h.config, h.faults, h.supply, h.portsOk⟩

/-! ### The ports (R181, R200, R203) -/

theorem PortRecord.hasReply_iff (p : PortRecord) (src : NetSource) : p.hasReply src = true ↔ 0 < p.repliesTo src := by
  simp only [PortRecord.hasReply, PortRecord.repliesTo, Bool.or_eq_true, Nat.add_pos_iff_pos_or_pos, List.countP_pos_iff,
    List.any_eq_true]
  split <;> simp_all

theorem PortRecord.repliesTo_append (p : PortRecord) (r : Reply) (src : NetSource) :
    PortRecord.repliesTo { p with replies := p.replies ++ [r] } src =
      p.repliesTo src + if r.requester = src then 1 else 0 := by
  have sends : PortRecord.sendsTo { p with replies := p.replies ++ [r] } src = p.sendsTo src := rfl
  simp only [PortRecord.repliesTo, sends, List.countP_append, List.countP_singleton, decide_eq_true_eq]
  omega

/-- Taking a frame into transmission moves a REPLY from the queue to the buffer (R204). -/
theorem PortRecord.repliesTo_take (p : PortRecord) (src : NetSource) : p.take.repliesTo src = p.repliesTo src := by
  unfold PortRecord.take
  split
  · rfl
  · next none =>
    split
    · next r rest _ e =>
      simp [PortRecord.repliesTo, PortRecord.sendsTo, none, e, List.countP_cons]
    · next e _ => simp [PortRecord.repliesTo, PortRecord.sendsTo, none]
    · rfl

/-- The queues and buffers of the ports in order, whatever is held for SERVICE (R181, R203). -/
def State.QueuesOk (s : State) : Prop :=
  (∀ port src, (s.port port).repliesTo src ≤ if NetSource.port src = port then 1 else 0)
    ∧ ∀ port, (s.port port).online = false →
      (s.port port).replies = [] ∧ (s.port port).status = none ∧ (s.port port).sending = none

theorem State.portsOk_iff (s : State) :
    s.PortsOk ↔ s.QueuesOk ∧ ∀ r, s.heldStore = some r ∨ s.heldCommand = some r →
      r.requester = .service ∧ s.portA.hasReply .service = true := by
  simp only [State.PortsOk, State.QueuesOk, and_assoc]

/-- The queues stay in order with a record in order put in the place of one. -/
theorem State.QueuesOk.setPort {s : State} {p : Port} {r : PortRecord} (h : s.QueuesOk)
    (count : ∀ src, r.repliesTo src ≤ if NetSource.port src = p then 1 else 0)
    (offline : r.online = false → r.replies = [] ∧ r.status = none ∧ r.sending = none) :
    (s.setPort p r).QueuesOk := by
  obtain ⟨counts, offlines⟩ := h
  cases p with
  | a =>
    refine ⟨fun q src => ?_, fun q => ?_⟩
    · cases q <;> [exact count src; exact counts .b src]
    · cases q <;> [exact offline; exact offlines .b]
  | b =>
    refine ⟨fun q src => ?_, fun q => ?_⟩
    · cases q <;> [exact counts .a src; exact count src]
    · cases q <;> [exact offlines .a; exact offline]

/-- The ports stay in order with a record in order put in the place of one. -/
theorem State.PortsOk.setPort {s : State} {p : Port} {r : PortRecord} (h : s.PortsOk)
    (count : ∀ src, r.repliesTo src ≤ if NetSource.port src = p then 1 else 0)
    (offline : r.online = false → r.replies = [] ∧ r.status = none ∧ r.sending = none)
    (held : p = .a → ∀ x, s.heldStore = some x ∨ s.heldCommand = some x → r.hasReply .service = true) :
    (s.setPort p r).PortsOk := by
  obtain ⟨queues, helds⟩ := (s.portsOk_iff).1 h
  refine (State.portsOk_iff _).2 ⟨queues.setPort count offline, ?_⟩
  cases p with
  | a => exact fun x hx => ⟨(helds x hx).1, held rfl x hx⟩
  | b => exact helds

/-- A REPLY joins the queue of an ONLINE port (R200). -/
theorem State.queueReply_online {s : State} {r : Reply} (h : (s.port (NetSource.port r.requester)).online = true) :
    s.queueReply r = s.setPort (NetSource.port r.requester)
      { s.port (NetSource.port r.requester) with
        replies := (s.port (NetSource.port r.requester)).replies ++ [r] } := if_pos h

/-- An OFFLINE port drops a REPLY (R181, R200). -/
theorem State.queueReply_offline {s : State} {r : Reply} (h : (s.port (NetSource.port r.requester)).online = false) :
    s.queueReply r = s := if_neg (by simp [h])

/-- A port in order takes a REPLY to a source of its own that has none there (R203). -/
theorem State.QueuesOk.queueReply {s : State} (h : s.QueuesOk) {r : Reply}
    (none : (s.port (NetSource.port r.requester)).hasReply r.requester = false) : (s.queueReply r).QueuesOk := by
  cases online : (s.port (NetSource.port r.requester)).online with
  | false => rw [State.queueReply_offline online]; exact h
  | true =>
    rw [State.queueReply_online online]
    refine h.setPort (fun src => ?_) fun off => by simp_all [PortRecord.online]
    have count := h.1 (NetSource.port r.requester) src
    rw [PortRecord.repliesTo_append]
    by_cases e : r.requester = src
    · subst e
      have zero := mt (PortRecord.hasReply_iff _ _).2 (Bool.not_eq_true _ ▸ none)
      simp; omega
    · simpa [e] using count

/-- A REPLY placed leaves those that are there. -/
theorem State.hasReply_queueReply {s : State} {p : Port} {src : NetSource} (r : Reply) (h : (s.port p).hasReply src = true) :
    ((s.queueReply r).port p).hasReply src = true := by
  cases online : (s.port (NetSource.port r.requester)).online with
  | false => rw [State.queueReply_offline online]; exact h
  | true =>
    rw [State.queueReply_online online]
    by_cases e : p = NetSource.port r.requester
    · subst e
      rw [State.port_setPort_self, PortRecord.hasReply_iff, PortRecord.repliesTo_append]
      exact Nat.add_pos_left ((PortRecord.hasReply_iff _ _).1 h) _
    · cases p <;> cases q : NetSource.port r.requester <;> first | exact h | exact absurd q.symm e

@[simp] theorem State.queueReply_heldStore (s : State) (r : Reply) : (s.queueReply r).heldStore = s.heldStore := by
  unfold State.queueReply
  dsimp only
  split <;> [cases NetSource.port r.requester <;> rfl; rfl]

@[simp] theorem State.queueReply_heldCommand (s : State) (r : Reply) : (s.queueReply r).heldCommand = s.heldCommand := by
  unfold State.queueReply
  dsimp only
  split <;> [cases NetSource.port r.requester <;> rfl; rfl]

/-- A REPLY to a source that has none on its port. -/
theorem State.PortsOk.queueReply {s : State} (h : s.PortsOk) {r : Reply}
    (none : (s.port (NetSource.port r.requester)).hasReply r.requester = false) : (s.queueReply r).PortsOk := by
  obtain ⟨queues, helds⟩ := (s.portsOk_iff).1 h
  refine (State.portsOk_iff _).2 ⟨queues.queueReply none, fun x hx => ?_⟩
  rw [State.queueReply_heldStore, State.queueReply_heldCommand] at hx
  exact ⟨(helds x hx).1, State.hasReply_queueReply (p := .a) r (helds x hx).2⟩

/-- A COMMAND that is not discarded has no REPLY before its own, or one before it that its own is held behind (R186, R200). -/
theorem State.PortsOk.placeReply {s : State} (h : s.PortsOk) {r : Reply} (taken : s.discards r.requester = false) :
    (s.placeReply r).PortsOk := by
  unfold State.discards at taken
  unfold State.placeReply
  split
  · next held =>
    obtain ⟨service, some⟩ := held
    obtain ⟨x, hx⟩ := Option.isSome_iff_exists.1 some
    refine ⟨h.1, h.2.1, fun y hy => ?_⟩
    rcases hy with hy | hy
    · exact h.2.2 y (.inl hy)
    · obtain rfl := Option.some.inj hy
      exact ⟨service, (h.2.2 x (.inl hx)).2⟩
  · next notHeld =>
    refine h.queueReply ?_
    split at taken
    · next service =>
      have none : s.heldStore.isNone = true := by
        simpa [service] using notHeld
      have free : s.portA.hasReply .service = false := by simpa [none] using (Bool.or_eq_false_iff.1 taken).2
      rw [service]
      exact free
    · exact taken

/-! ### A COMMAND frame -/

theorem orderly_placeReply {s : State} {r : Reply} (taken : s.discards r.requester = false) : Orderly s (s.placeReply r) := by
  have e : s.placeReply r = { s with
      portA := (s.placeReply r).portA, portB := (s.placeReply r).portB, heldCommand := (s.placeReply r).heldCommand } := by
    unfold State.placeReply
    split
    · rfl
    · unfold State.queueReply
      dsimp only
      split
      · cases NetSource.port r.requester <;> rfl
      · rfl
  refine ⟨?_, ?_, ?_, ?_, fun h => h.placeReply taken⟩
  · rw [e]
  · rw [e]; exact id
  · rw [e]; exact id
  · rw [e]; exact id

theorem Internal.discards {s t : State} (h : Internal s t) (src : NetSource) : t.discards src = s.discards src := by
  simp only [State.discards, h.port, h.portA, h.heldStore, h.heldCommand]

/-- A COMMAND frame keeps the part in order where its owner leaves ports and command queue as they are (R183, R186). -/
theorem orderly_takeCommand {s : State} {owner : NetSource → State → Taken} (rx : RxHeader) (code : Nat)
    (h : ∀ src, Internal s (owner src s).state) : Orderly s (s.takeCommand rx code owner) := by
  unfold State.takeCommand
  split
  · exact .refl s
  · next src _ =>
    refine .ite (fun _ => .refl s) fun taken => ?_
    unfold Taken.finish
    split
    · exact (h src).orderly
    · exact (h src).orderly.trans (orderly_placeReply (((h src).discards src).trans (by simpa using taken)))

/-! ### The events of the ports (R181, R201, R204) -/

/-- A record put in the place of a port's. -/
theorem orderly_setPort {s : State} {p : Port} {r : PortRecord} (h : s.PortsOk → (s.setPort p r).PortsOk) :
    Orderly s (s.setPort p r) := by
  cases p <;> exact ⟨rfl, id, id, id, h⟩

/-- A record with the REPLYs of the one before it. -/
theorem orderly_setPort_of_same {s : State} {p : Port} {r : PortRecord}
    (same : ∀ src, r.repliesTo src = (s.port p).repliesTo src)
    (offline : s.PortsOk → r.online = false → r.replies = [] ∧ r.status = none ∧ r.sending = none) :
    Orderly s (s.setPort p r) :=
  orderly_setPort fun h => h.setPort (fun src => (same src).trans_le (h.1 p src)) (offline h) fun a x hx => by
    subst a
    rw [PortRecord.hasReply_iff, same]
    exact (PortRecord.hasReply_iff _ _).1 (h.2.2 x hx).2

/-- On an ONLINE port a STATUS of the state as it stands replaces one that waits (R202). -/
theorem State.broadcast_eq (s : State) (port : Port) :
    s.broadcast port = s.setPort port
      { s.port port with
        status := if (s.port port).link = .online then some s.statusFrame else (s.port port).status } := by
  unfold State.broadcast
  simp only [PortRecord.online, decide_eq_true_eq]
  split
  · rfl
  · cases port <;> rfl

/-- STATUS_DUE restarts the timer, and the STATUS is that of the state as it stands (R201, R202). -/
theorem exec_statusDue (s : State) (port : Port) :
    exec (.statusDue port) s = .next ((s.advanceTo ((s.port port).lastDue + 10 * s.cfg.zone.statusInterval)).setPort port
      { s.port port with
        lastDue := max s.now ((s.port port).lastDue + 10 * s.cfg.zone.statusInterval)
        status := if (s.port port).link = .online then some s.statusFrame else (s.port port).status }) :=
  congrArg Host.Outcome.next ((State.broadcast_eq _ port).trans (by cases port <;> rfl))

theorem orderly_statusDue (s : State) (port : Port) : ∃ t, exec (.statusDue port) s = .next t ∧ Orderly s t := by
  refine ⟨_, exec_statusDue s port, (internal_advanceTo s _).orderly.trans (orderly_setPort_of_same (fun _ => ?_) ?_)⟩
  · cases port <;> rfl
  · intro h off
    obtain ⟨replies, status, sending⟩ := h.2.1 port off
    have link : (s.port port).link ≠ .online := of_decide_eq_false off
    exact ⟨replies, (if_neg link).trans status, sending⟩

theorem orderly_take (s : State) (port : Port) :
    Orderly s (if (s.port port).online then s.setPort port (s.port port).take else s) := by
  refine .ite (fun online => orderly_setPort_of_same (PortRecord.repliesTo_take _) fun _ off => ?_) fun _ => .refl s
  have link : (s.port port).take.link = (s.port port).link := by
    unfold PortRecord.take
    split
    · rfl
    · split <;> rfl
  rw [PortRecord.online, link] at off
  exact absurd online (by simpa [PortRecord.online] using off)

/-- A port that sends is ONLINE. -/
theorem State.PortsOk.online_of_sendsTo {s : State} (h : s.PortsOk) {p : Port} {src : NetSource}
    (sends : (s.port p).sendsTo src = true) : (s.port p).online = true := by
  by_contra off
  have none := (h.2.1 p (by simpa using off)).2.2
  simp [PortRecord.sendsTo, none] at sends

/-- The end of a frame takes a REPLY from those queued or in transmission. -/
theorem PortRecord.repliesTo_sent (p : PortRecord) (src : NetSource) :
    PortRecord.repliesTo { p with sending := none } src = p.repliesTo src - if p.sendsTo src then 1 else 0 := by
  simp [PortRecord.repliesTo, PortRecord.sendsTo]

/-- The part with the frame in transmission of a port sent. -/
def State.sent (s : State) (p : Port) : State := s.setPort p { s.port p with sending := none }

theorem State.PortsOk.sent {s : State} (h : s.PortsOk) (p : Port) : (s.sent p).QueuesOk := by
  refine State.QueuesOk.setPort ⟨h.1, h.2.1⟩ (fun src => ?_) fun off => ?_
  · rw [PortRecord.repliesTo_sent]
    exact (Nat.sub_le _ _).trans (h.1 p src)
  · obtain ⟨replies, status, -⟩ := h.2.1 p off
    exact ⟨replies, status, rfl⟩

/-- A held REPLY to SERVICE placed on port A where none waits there. -/
theorem State.PortsOk.release {u : State} {r : Reply} (queues : u.QueuesOk) (service : r.requester = .service)
    (online : u.portA.online = true) (none : u.portA.hasReply .service = false)
    (held : ∀ x, u.heldStore = some x ∨ u.heldCommand = some x → x.requester = .service) : (u.queueReply r).PortsOk := by
  have port : NetSource.port r.requester = .a := by rw [service]; rfl
  refine (State.portsOk_iff _).2 ⟨queues.queueReply (by rw [service]; exact none), fun x hx => ?_⟩
  rw [State.queueReply_heldStore, State.queueReply_heldCommand] at hx
  refine ⟨held x hx, ?_⟩
  rw [State.queueReply_online (by rw [port]; exact online), port, PortRecord.hasReply_iff]
  refine (Nat.pos_of_ne_zero ?_).trans_eq (PortRecord.repliesTo_append _ _ _).symm
  simp [service]

/-- The end of a REPLY to SERVICE on port A leaves none to SERVICE there, so that a held one may follow (R200). -/
theorem State.PortsOk.placeHeld {s : State} (h : s.PortsOk) (sends : s.portA.sendsTo .service = true) :
    (s.sent .a).placeHeld.PortsOk := by
  have queues := h.sent .a
  have online : (s.sent .a).portA.online = true := h.online_of_sendsTo (p := .a) sends
  have cleared : (s.sent .a).portA.hasReply .service = false := by
    have count : s.portA.repliesTo .service ≤ 1 := h.1 .a .service
    rw [Bool.eq_false_iff, ne_eq, PortRecord.hasReply_iff]
    change ¬0 < PortRecord.repliesTo { s.portA with sending := none } .service
    rw [PortRecord.repliesTo_sent, sends, if_pos rfl]
    omega
  unfold State.placeHeld
  split
  · next r hr =>
    exact .release queues (h.2.2 r (.inl hr)).1 online cleared fun x hx => (h.2.2 x (hx.imp nofun id)).1
  · next r _ hr =>
    exact .release queues (h.2.2 r (.inr hr)).1 online cleared fun x hx => (h.2.2 x (hx.imp id nofun)).1
  · next hs hc =>
    exact (State.portsOk_iff _).2 ⟨queues, fun x hx => by simp_all⟩

theorem PortRecord.hasReply_of_not_sendsTo {p : PortRecord} {src : NetSource} (h : p.sendsTo src = false) :
    PortRecord.hasReply { p with sending := none } src = p.hasReply src := by
  rw [PortRecord.hasReply, PortRecord.hasReply, h]; rfl

theorem orderly_sent (s : State) (p : Port) (h : ¬(p = .a ∧ s.portA.sendsTo .service = true)) : Orderly s (s.sent p) := by
  refine orderly_setPort fun ok => ?_
  obtain ⟨count, offline⟩ := ok.sent p
  refine ok.setPort (fun src => ?_) (fun off => ?_) fun a x hx => ?_
  · simpa [State.sent] using count p src
  · have := offline p
    rw [State.sent, State.port_setPort_self] at this
    exact this off
  · subst a
    exact (PortRecord.hasReply_of_not_sendsTo (Bool.eq_false_iff.2 fun e => h ⟨rfl, e⟩)).trans (ok.2.2 x hx).2

theorem State.queueReply_frame (s : State) (r : Reply) :
    s.queueReply r = { s with portA := (s.queueReply r).portA, portB := (s.queueReply r).portB } := by
  unfold State.queueReply
  dsimp only
  split <;> [cases NetSource.port r.requester <;> rfl; rfl]

theorem State.placeHeld_frame (s : State) :
    s.placeHeld = { s with
      portA := s.placeHeld.portA, portB := s.placeHeld.portB
      heldStore := s.placeHeld.heldStore, heldCommand := s.placeHeld.heldCommand } := by
  unfold State.placeHeld
  split
  · rw [State.queueReply_frame]
  · rw [State.queueReply_frame]
  · rfl

theorem orderly_frameSent (s : State) (p : Port) :
    Orderly s (if p = .a ∧ s.portA.sendsTo .service then (s.sent p).placeHeld else s.sent p) := by
  refine .ite (fun h => ?_) (orderly_sent s p)
  obtain ⟨rfl, sends⟩ := h
  refine ⟨?_, ?_, ?_, ?_, fun ok => ok.placeHeld sends⟩ <;> rw [State.placeHeld_frame]
  · rfl
  · exact id
  · exact id
  · exact id

theorem orderly_busOff (s : State) (p : Port) : ∃ t, exec (.busOff p) s = .next t ∧ Orderly s t := by
  refine ⟨_, rfl, .ite (fun _ => ?_) fun _ => .refl s⟩
  have empty (src : NetSource) :
      PortRecord.repliesTo ⟨.offline s.now, [], none, none, (s.port p).lastDue⟩ src = 0 := rfl
  have off : PortRecord.online ⟨.offline s.now, [], none, none, (s.port p).lastDue⟩ = false := rfl
  dsimp only
  cases p with
  | a =>
    refine ⟨rfl, id, id, id, fun h => (State.portsOk_iff _).2 ⟨?_, fun x hx => by simp [State.dropHeld] at hx⟩⟩
    exact State.QueuesOk.setPort (s := s) (p := .a) ⟨h.1, h.2.1⟩ (fun src => (empty src).trans_le (Nat.zero_le _))
      fun _ => ⟨rfl, rfl, rfl⟩
  | b =>
    refine orderly_setPort (s := s) (p := .b) fun h => h.setPort (fun src => (empty src).trans_le (Nat.zero_le _))
      (fun _ => ⟨rfl, rfl, rfl⟩) fun e => by cases e

theorem orderly_linkReturn (s : State) (p : Port) : ∃ t, exec (.linkReturn p) s = .next t ∧ Orderly s t := by
  refine ⟨_, rfl, ?_⟩
  split
  · refine (internal_advanceTo s _).orderly.trans (orderly_setPort_of_same (fun _ => ?_) fun _ off => ?_)
    · cases p <;> rfl
    · cases off
  · exact .refl s

/-! ### The store's completion (R16, R200) -/

theorem orderly_placeStoreReply (s : State) (result : ReplyResult) : Orderly s (s.placeStoreReply result) := by
  refine .ite (fun h => ⟨rfl, id, id, id, fun ok => ?_⟩) fun h => ?_
  · obtain ⟨-, has⟩ := Bool.and_eq_true_iff.1 h
    refine ⟨ok.1, ok.2.1, fun x hx => hx.elim (fun hx => ?_) fun hx => ok.2.2 x (.inr hx)⟩
    obtain rfl := Option.some.inj hx
    exact ⟨rfl, has⟩
  · refine ⟨?_, ?_, ?_, ?_, fun ok => ?_⟩
    · rw [State.queueReply_frame]
    · rw [State.queueReply_frame]; exact id
    · rw [State.queueReply_frame]; exact id
    · rw [State.queueReply_frame]; exact id
    · cases online : s.portA.online with
      | false => rw [State.queueReply_offline (r := (Answer.mk result []).toReply 15 .service) online]; exact ok
      | true =>
        have free : s.portA.hasReply .service = false := by simpa [online] using h
        exact ok.queueReply free

theorem orderly_storeCompletion (s : State) (readBack : Option StoredImage) :
    ∃ t, exec (.storeCompletion readBack) s = .next t ∧ Orderly s t := by
  refine ⟨_, rfl, ?_⟩
  have same (store image) : Orderly s { s with store := store, image := image } := ⟨rfl, id, id, id, id⟩
  split
  · exact .refl s
  · exact .ite (fun _ => (same _ _).trans (orderly_placeStoreReply _ _))
      fun _ => ((same _ _).trans (internal_occur _ _).orderly).trans (orderly_placeStoreReply _ _)

/-! ### The resets -/

theorem Profile.warmLevel_le {g : WorkingConfig} (h : g.valid = true) (c : Channel) :
    Profile.warmLevel g.profile[c] ≤ heatMax := by
  obtain ⟨inRange, -, -⟩ := (WorkingConfig.valid_iff g).1 h
  have warm : g.profile[c].warm ≤ 65535 := of_decide_eq_true (Bool.and_eq_true_iff.1 (inRange (.profile c .warm))).2
  have shift : g.profile[c].decayShift ≤ 16 :=
    of_decide_eq_true (Bool.and_eq_true_iff.1 (inRange (.profile c .decayShift))).2
  calc Profile.warmLevel g.profile[c] ≤ 65535 * 2 ^ 16 := Nat.mul_le_mul warm (Nat.pow_le_pow_right (by decide) shift)
    _ ≤ heatMax := by decide

theorem Zone.warmLevel_le {g : WorkingConfig} (h : g.valid = true) : Zone.warmLevel g.zone ≤ heatMax := by
  obtain ⟨inRange, -, -⟩ := (WorkingConfig.valid_iff g).1 h
  have warm : g.zone.feederWarm ≤ 65535 := of_decide_eq_true (Bool.and_eq_true_iff.1 (inRange (.zone .feederWarm))).2
  have shift : g.zone.feederShift ≤ 16 := of_decide_eq_true (Bool.and_eq_true_iff.1 (inRange (.zone .feederShift))).2
  calc Zone.warmLevel g.zone ≤ 65535 * 2 ^ 16 := Nat.mul_le_mul warm (Nat.pow_le_pow_right (by decide) shift)
    _ ≤ heatMax := by decide

theorem Supervisor.Ok.afterReset {v : Supervisor} (h : v.Ok) (cause : ResetCause) {g : WorkingConfig}
    (valid : g.valid = true) (t : Moment) : (v.afterReset cause g.zone t).Ok := by
  have floors (src : NetSource) (f : Floor) (hf : (PerSource.const (none : Option Floor)).get src = some f) :
      1 ≤ f.level ∧ f.level ≤ 3 := by cases src <;> cases hf
  cases cause with
  | powerOn => exact ⟨rfl, Nat.zero_le _, Nat.zero_le _, floors, Nat.zero_le _⟩
  | supplyDip => exact ⟨rfl, Nat.zero_le _, Nat.zero_le _, floors, Zone.warmLevel_le valid⟩
  | external => exact ⟨rfl, Nat.zero_le _, Nat.zero_le _, floors, h.2.2.2.2⟩

/-- The list after a reset: empty, or with records made PASSIVE (R179, R180). -/
theorem State.faultsAfterReset_ok {s : State} (h : s.faults.Ok) (cause : ResetCause) : (s.faultsAfterReset cause).Ok := by
  have empty : FaultList.Ok ⟨[], false, 0, s.now, ⟨s.now, ⟨[], false⟩, []⟩⟩ :=
    FaultList.Ok.settle (l := ⟨[], false, 0, s.now, ⟨s.now, ⟨[], false⟩, []⟩⟩)
      ⟨Nat.zero_le _, List.nodup_nil, nofun⟩ (Nat.zero_le _) s.now
  cases cause with
  | powerOn => exact empty
  | supplyDip => exact empty
  | external =>
    refine FaultList.Ok.settle (l := { s.faults with
      records := s.faults.records.map fun r => { r with active := r.active && s.keepsActive r.key }
      secondStart := s.now }) (h.1.map _ _ (fun _ => rfl) fun r ok => ?_) h.2.1 s.now
    obtain ⟨low, high, order, last, event⟩ := ok
    exact ⟨low, high, order, last, fun e => by simp [event e]⟩

theorem orderly_afterReset (s : State) (cause : ResetCause) (pins : ResetPins) : Orderly s (s.afterReset cause pins) := by
  have load (t : State) : Internal t t.reportLoad := .ite (.refl t) (internal_occur t _)
  have grace (t : State) : Internal t t.startGraceAtReset := .ite (internal_endGrace t) (.refl t)
  refine .trans ?_ ((load _).trans (grace _)).orderly
  have valid := s.imageAfterReset.load_valid
  refine ⟨rfl, fun _ => valid, fun h => State.faultsAfterReset_ok h cause, fun h => h.afterReset cause valid _, fun _ => ?_⟩
  refine ⟨fun p src => ?_, fun p off => ?_, by simp⟩
  · cases p <;> exact Nat.zero_le _
  · cases p <;> cases off

/-! ### The uptime clock (R169) -/

/-- A tick of the uptime clock keeps the list in order: the clock only rises. -/
theorem FaultList.Ok.tick {l : FaultList} (h : l.Ok) (start : Moment) :
    FaultList.Ok { l with uptime := min 16777215 (l.uptime + 1), secondStart := start } := by
  obtain ⟨records, bound, ⟨before, events, order⟩, made⟩ := h
  have rises : l.uptime ≤ min 16777215 (l.uptime + 1) := by omega
  exact ⟨records.mono rises, Nat.min_le_left _ _,
    ⟨before.mono rises, fun e he => ⟨(events e he).1.trans rises, (events e he).2⟩, order⟩, made⟩

/-! ### The feeder (R149, R154) -/

/-- A comparison, L recomputed and the heat updated leave the supervisor in order (R88, R149, R154). -/
theorem Supervisor.Ok.compared {v : Supervisor} (h : v.Ok) (z : Zone) (t : Moment) (shift power : Nat) :
    let u := v.compare z t
    Supervisor.Ok { u with level := u.effective, heat := heatStep shift power u.heat } := by
  obtain ⟨-, voltage, thermal, floors, -⟩ := h
  intro u
  have moved : u = { v with thermalLevel := v.thermalAfter z t, dwellStart := u.dwellStart } := v.compare_eq z t
  refine Supervisor.Ok.recomputed (v := { u with heat := heatStep shift power u.heat }) ?_ ?_ ?_ (heatStep_le _ _ _)
  all_goals dsimp only; rw [moved]
  · exact voltage
  · exact Supervisor.thermalAfter_le thermal z t
  · exact floors

theorem internal_feederFuseTick (s : State) : ∃ t, exec .feederFuseTick s = .next t ∧ Internal s t := by
  refine ⟨_, rfl, (internal_advanceTo s (s.sup.lastTick + 10)).trans
    (((internal_sup fun h => ?_).trans (internal_report _ _)).trans (internal_evaluateLevel _ _))⟩
  exact Supervisor.Ok.compared (v := { s.sup with lastTick := max s.now (s.sup.lastTick + 10) }) h s.cfg.zone _ _ _

/-! ### Every command -/

/-- Every command has a next state, and keeps the part in order. -/
theorem exec_orderly (i : Instr) (s : State) : ∃ t, exec i s = .next t ∧ Orderly s t := by
  cases i with
  | powerOn pins => exact ⟨_, rfl, orderly_afterReset s _ pins⟩
  | supplyDip pins => exact ⟨_, rfl, orderly_afterReset s _ pins⟩
  | external pins => exact ⟨_, rfl, orderly_afterReset s _ pins⟩
  | demand rx data =>
    refine ⟨_, rfl, Internal.orderly ?_⟩
    split <;> [exact .refl s; exact internal_takeDemand s ..]
  | pulseTimerExpiry src c =>
    refine ⟨_, rfl, Internal.orderly ?_⟩
    split <;> [exact ((internal_advanceTo s _).trans (internal_setChan _ _ _)).trans (internal_evaluate _ c); exact .refl s]
  | lapse src c =>
    refine ⟨_, rfl, Internal.orderly ?_⟩
    split <;> [exact (internal_advanceTo s _).trans (internal_lapseAll _ _); exact .refl s]
  | startGraceEnd =>
    refine ⟨_, rfl, Internal.orderly ?_⟩
    split <;> [exact (internal_advanceTo s _).trans (internal_endGrace _); exact .refl s]
  | admission =>
    refine ⟨_, rfl, Internal.orderly ?_⟩
    split <;> [exact .refl s; exact internal_admitQueued s; exact (internal_advanceTo s _).trans (internal_admitQueued _)]
  | inrushTimerExpiry c =>
    refine ⟨_, rfl, Internal.orderly ?_⟩
    split <;> [exact (internal_advanceTo s _).trans (internal_enterRunning _ _ _); exact .refl s]
  | allowanceTimerExpiry c =>
    refine ⟨_, rfl, Internal.orderly ?_⟩
    split <;> [exact (internal_advanceTo s _).trans (internal_setChan _ _ _); exact .refl s]
  | periodBoundary c =>
    refine ⟨_, rfl, Internal.orderly ?_⟩
    have boundary (g start) : Internal s (s.boundary c g start) :=
      (internal_advanceTo s _).trans (internal_startPeriod _ c g)
    split <;> [exact boundary _ _; exact boundary _ _; exact .refl s]
  | phaseTimerExpiry p =>
    refine ⟨_, rfl, Internal.orderly ?_⟩
    split
    · exact .refl s
    · exact (internal_advanceTo s _).trans (internal_startOnPhase _ p)
    · exact (internal_frame s ..).trans (.foldl (fun t _ => internal_setChan t ..) _ _)
  | scan m order =>
    have recorded (t : State) : Internal t (t.recordScan m) :=
      (internal_frame t ..).trans (.foldl (fun u _ => internal_setChan u ..) _ _)
    exact ⟨_, rfl, (((internal_advanceTo s _).trans (recorded _)).trans (.foldl (fun t d => internal_deliver _ t d) _ _)).orderly⟩
  | pwmMidpoint c milliamps =>
    refine ⟨_, rfl, Internal.orderly ?_⟩
    split
    · exact ((internal_advanceTo s _).trans (internal_setChan _ _ _)).trans (internal_deliverCurrent _ ..)
    · exact .refl s
  | offTimeWaitComplete c =>
    refine ⟨_, rfl, Internal.orderly ?_⟩
    split <;> [exact (internal_advanceTo s _).trans (internal_withProt ..); exact .refl s; exact .refl s]
  | fuseTick c =>
    exact ⟨_, rfl, (((((internal_advanceTo s _).trans (internal_withProt ..)).trans (internal_compareLevels _ c)).trans
      (internal_withProt ..)).trans (internal_evaluateMoved _ _ c)).orderly⟩
  | retryDelayExpiry c =>
    refine ⟨_, rfl, Internal.orderly ?_⟩
    split <;> [exact (internal_advanceTo s _).trans (internal_withProt ..); exact .refl s]
  | stableRunExpiry c =>
    refine ⟨_, rfl, Internal.orderly ?_⟩
    split <;> [exact (internal_advanceTo s _).trans (internal_withProt ..); exact .refl s]
  | feederFuseTick =>
    obtain ⟨t, ht, k⟩ := internal_feederFuseTick s
    exact ⟨t, ht, k.orderly⟩
  | floorExpiry src =>
    refine ⟨_, rfl, Internal.orderly ?_⟩
    split <;> [exact (internal_advanceTo s _).trans (internal_setFloor nofun); exact .refl s]
  | lineLevelChange l high =>
    exact ⟨_, rfl, (Internal.ite (.refl s) ((internal_setLine s l _).trans (internal_reconsider _ l))).orderly⟩
  | debounceExpiry l floorFirst =>
    refine ⟨_, rfl, Internal.orderly ?_⟩
    split <;> [exact (internal_advanceTo s _).trans (internal_settle _ l floorFirst); exact .refl s]
  | release rx args => exact ⟨_, rfl, orderly_takeCommand rx 1 (internal_release s _ _ _)⟩
  | clearChannel rx args => exact ⟨_, rfl, orderly_takeCommand rx 2 (internal_clear s _)⟩
  | clearEmergency rx args => exact ⟨_, rfl, orderly_takeCommand rx 3 (internal_clearEmergency s)⟩
  | clearFaults rx args => exact ⟨_, rfl, orderly_takeCommand rx 4 (internal_clearFaults s)⟩
  | shedFloor rx args => exact ⟨_, rfl, orderly_takeCommand rx 5 (internal_shedFloor s _ _)⟩
  | flashSync rx args => exact ⟨_, rfl, orderly_takeCommand rx 6 (internal_flashSync s _)⟩
  | queryChannel rx args =>
    exact ⟨_, rfl, orderly_takeCommand rx 7 fun src => by rw [State.queryOf_state]; exact .refl s⟩
  | queryProtection rx args =>
    exact ⟨_, rfl, orderly_takeCommand rx 8 fun src => by rw [State.queryOf_state]; exact .refl s⟩
  | queryEntry rx args =>
    exact ⟨_, rfl, orderly_takeCommand rx 9 fun src => by rw [State.queryEntry_state]; exact .refl s⟩
  | queryZone rx args =>
    exact ⟨_, rfl, orderly_takeCommand rx 10 fun src => by rw [State.queryZone_state]; exact .refl s⟩
  | readFault rx args =>
    exact ⟨_, rfl, orderly_takeCommand rx 11 fun src => by rw [State.readFault_state]; exact .refl s⟩
  | readLimitLog rx args => exact ⟨_, rfl, orderly_takeCommand rx 12 (internal_readLimitLog s _ _)⟩
  | configRead rx args =>
    exact ⟨_, rfl, orderly_takeCommand rx 13 fun src => by rw [State.configRead_state]; exact .refl s⟩
  | configWrite rx args => exact ⟨_, rfl, orderly_takeCommand rx 14 (internal_configWrite s _ _ _ _)⟩
  | configStore rx args => exact ⟨_, rfl, orderly_takeCommand rx 15 (internal_configStore s)⟩
  | unknownCommand rx code args => exact ⟨_, rfl, orderly_takeCommand rx 0 fun _ => .refl s⟩
  | storeCompletion readBack => exact orderly_storeCompletion s readBack
  | statusDue port => exact orderly_statusDue s port
  | takeIntoTransmission port => exact ⟨_, rfl, orderly_take s port⟩
  | frameSent port => exact ⟨_, rfl, orderly_frameSent s port⟩
  | busOff port => exact orderly_busOff s port
  | linkReturn port => exact orderly_linkReturn s port
  | uptimeTick => exact ⟨_, rfl, rfl, id, fun h => h.tick _, id, id⟩

/-- A step keeps the part in order: on an empty queue only time passes. -/
theorem step_keeps {P : State → Prop} (queue : ∀ s l, P s → P { s with pending := l }) (idle : ∀ s n, P s → P { s with now := n })
    (command : ∀ i s t, P s → exec i s = .next t → P t) {s t : State} (h : P s) (k : step s = .next t) : P t := by
  unfold step at k
  split at k
  · obtain rfl := Host.Outcome.next.inj k
    exact idle s _ h
  · exact command _ _ _ (queue s _ h) k

/-- What the meaning of a command is known to keep. -/
theorem Orderly.of_exec {i : Instr} {s t : State} (h : exec i s = .next t) : Orderly s t := by
  obtain ⟨u, hu, ok⟩ := exec_orderly i s
  rw [h] at hu
  obtain rfl := Host.Outcome.next.inj hu
  exact ok

/-- Settles O2: every meaning answers next, and none writes the command queue. -/
theorem commandsNeverStop : Obligations.CommandsNeverStop := fun c s =>
  let ⟨t, exec_eq, ok⟩ := exec_orderly c s
  ⟨t, exec_eq, ok.pending⟩

/-- Settles O4: every report, a CLEAR_FAULTS, a reset and the uptime clock keep the list in order. -/
theorem faultListStaysInOrder : Obligations.FaultListStaysInOrder := fun _ _ =>
  step_keeps (P := fun s => s.faults.Ok) (fun _ _ => id) (fun _ _ => id) fun _ _ _ h k => (Orderly.of_exec k).faults h

/-- Settles O5: a reset loads a valid configuration, and CONFIG_WRITE writes in range and in relation. -/
theorem configurationStaysInRange : Obligations.ConfigurationStaysInRange := fun _ _ =>
  step_keeps (P := State.ConfigOk) (fun _ _ => id) (fun _ _ => id) fun _ _ _ h k => (Orderly.of_exec k).config h

/-- Settles O10: L is recomputed with each of its components. -/
theorem supplyStaysInOrder : Obligations.SupplyStaysInOrder := fun _ _ =>
  step_keeps (P := fun s => s.sup.Ok) (fun _ _ => id) (fun _ _ => id) fun _ _ _ h k => (Orderly.of_exec k).supply h

/-- Settles O11: the discard test keeps REPLYs to one source apart, and a held one follows the one it waits for. -/
theorem portsStayInOrder : Obligations.PortsStayInOrder := fun _ _ =>
  step_keeps (P := State.PortsOk) (fun _ _ => id) (fun _ _ => id) fun _ _ _ h k => (Orderly.of_exec k).ports h

end Sys2Proof.Machine
end

section
/-! SUPPORT. Updates channel by channel: what a row of updates, each of one channel, makes of every channel; and what each
operation of the demand table writes of its own channel. -/

namespace Sys2Proof.Machine

/-! ### Rows of updates, each of one channel -/

/-- Updates of different channels in a row: an operation that keeps I writes of the channels only its own, and of that what
G says. -/
structure ByChannel {α : Type} (f : State → α → State) (κ : α → Channel) (I : State → Prop)
    (G : α → ChannelState → ChannelState) : Prop where
  keeps : ∀ t a, I t → I (f t a)
  own : ∀ t a, I t → (f t a).chan (κ a) = G a (t.chan (κ a))
  others : ∀ t a, I t → ∀ d, d ≠ κ a → (f t a).chan d = t.chan d

section
variable {α : Type} {f : State → α → State} {κ : α → Channel} {I : State → Prop} {G : α → ChannelState → ChannelState}

theorem ByChannel.foldl_keeps (h : ByChannel f κ I G) : ∀ (l : List α) (s : State), I s → I (l.foldl f s)
  | [], _, hs => hs
  | a :: l, s, hs => h.foldl_keeps l (f s a) (h.keeps s a hs)

theorem ByChannel.foldl_others (h : ByChannel f κ I G) {c : Channel} :
    ∀ (l : List α) (s : State), I s → (∀ a ∈ l, c ≠ κ a) → (l.foldl f s).chan c = s.chan c
  | [], _, _, _ => rfl
  | a :: l, s, hs, hc => by
    rw [List.foldl_cons, h.foldl_others l _ (h.keeps s a hs) fun b hb => hc b (List.mem_cons_of_mem _ hb)]
    exact h.others s a hs c (hc a List.mem_cons_self)

theorem ByChannel.foldl_own (h : ByChannel f κ I G) {a : α} {l : List α} (nodup : (l.map κ).Nodup) (ha : a ∈ l) {s : State}
    (hs : I s) : (l.foldl f s).chan (κ a) = G a (s.chan (κ a)) := by
  induction l generalizing s with
  | nil => cases ha
  | cons b l ih =>
    rw [List.map_cons, List.nodup_cons] at nodup
    obtain ⟨hb, nodup⟩ := nodup
    rw [List.foldl_cons]
    by_cases e : a = b
    · rw [← e, h.foldl_others l _ (h.keeps s a hs) fun d hd k =>
        hb (by rw [← e, k]; exact List.mem_map_of_mem hd)]
      exact h.own s a hs
    · have ha : a ∈ l := (List.mem_cons.1 ha).resolve_left e
      rw [ih nodup ha (h.keeps s b hs), h.others s b hs]
      exact fun k => hb (k ▸ List.mem_map_of_mem ha)

end

/-- A row over channels themselves. -/
theorem ByChannel.foldl_chan {f : State → Channel → State} {I : State → Prop} {G : Channel → ChannelState → ChannelState}
    (h : ByChannel f id I G) {l : List Channel} (nodup : l.Nodup) {s : State} (hs : I s) (c : Channel) :
    (l.foldl f s).chan c = if c ∈ l then G c (s.chan c) else s.chan c := by
  split
  · next hc => exact h.foldl_own (by simpa using nodup) hc hs
  · next hc => exact h.foldl_others l s hs fun a ha e => hc (e ▸ ha)

theorem nodup_allChannels : allChannels.Nodup := by decide

/-- Updates that write channels only, by what the state they found says. -/
theorem byChannel_setChan {α : Type} {f : State → α → State} {κ : α → Channel} {G : α → ChannelState → ChannelState}
    (s : State) (h : ∀ t a, t = { s with chans := t.chans } → f t a = t.setChan (κ a) (G a (t.chan (κ a)))) :
    ByChannel f κ (fun t => t = { s with chans := t.chans }) G where
  keeps t a ht := by rw [h t a ht, ht]; rfl
  own t a ht := by rw [h t a ht, State.chan_setChan_self]
  others t a ht d hd := by rw [h t a ht, State.chan_setChan_ne _ _ hd]

/-! ### One channel of the demand table -/

/-- The records of a channel with its demand list replaced. -/
def ChannelState.withList (x : ChannelState) (l : DemandList) : ChannelState :=
  { x with demand := { x.demand with list := l } }

/-- The records of a channel with a cause added to its log (R63). -/
def ChannelState.logged (x : ChannelState) (k : LimitCause) : ChannelState :=
  { x with arb := { x.arb with log := x.arb.log.add k } }

theorem State.removeEntry_eq (s : State) (src : NetSource) (c : Channel) :
    s.removeEntry src c =
      s.setChan c ((s.chan c).withList { (s.chan c).demand.list with net := (s.chan c).demand.list.net.set src none }) := rfl

theorem State.logCause_eq (s : State) (c : Channel) (k : LimitCause) : s.logCause c k = s.setChan c ((s.chan c).logged k) := rfl

/-! ### A code of a DEMAND frame (R24 to R30) -/

/-- The code writes an entry: a pulse entry of the sender is renewed and not written (R27, R30). -/
def DemandItem.writes (d : DemandItem) (own : Option Entry) : Bool :=
  match d.code with
  | .off => true
  | .on => true
  | .dim => true
  | .flash => true
  | .pulse => !(own.any Entry.isPulse)
  | .skip => false
  | .release => false
  | .renew => false

/-- What a code of a DEMAND frame makes of the records of its channel, under a profile, at a moment, with the deadline a
write or renewal sets (R24 step 3). -/
def ChannelState.took (x : ChannelState) (p : Profile) (src : NetSource) (d : DemandItem) (now deadline : Moment)
    (grace : Bool) : ChannelState :=
  if d.refused p src then x.logged .refused
  else
    { x with demand := { x.demand with
      list := x.demand.list.afterCode src d now deadline
      claimed := x.demand.claimed || (d.writes (x.demand.list.net.get src) && grace) } }

/-- The class of an entry, as the statements name it (R25). -/
theorem classFor_eq (src : NetSource) (n : Nat) :
    classFor src n =
      if src = .service then .force
      else if n = 3 ∧ src = .drive then .safety
      else if n = 2 ∨ n = 3 then .duty
      else .comfort := by
  have field : Class.ofField n = if n = 2 then .duty else if n = 3 then .safety else .comfort := by
    unfold Class.ofField
    split <;> simp_all
  by_cases h2 : n = 2
  · subst h2; cases src <;> rfl
  · by_cases h3 : n = 3
    · subst h3; cases src <;> rfl
    · cases src <;> simp [classFor, field, h2, h3, Class.heldAtDuty]

theorem dutyOf_eq (n : Nat) : dutyOf n = if n ≤ 250 then 4 * n else 1000 := by
  unfold dutyOf
  split <;> omega

theorem pulseLength_eq (n : Nat) : pulseLength n = if n = 0 then 10 else 10 * n := by
  unfold pulseLength
  split <;> omega

/-- An entry written: the list has it, and the channel is claimed while the start grace runs (R27, R38). -/
theorem State.writeEntry_eq (s : State) (src : NetSource) (c : Channel) (cls : Sys2Proof.Class) (cmd : EntryCommand) :
    s.writeEntry src c cls cmd = s.setChan c { s.chan c with demand := { (s.chan c).demand with
      list := { (s.chan c).demand.list with
        net := (s.chan c).demand.list.net.set src (some ⟨cls, cmd, some (s.lapseDeadline src)⟩), fallback := none }
      claimed := (s.chan c).demand.claimed || s.graceStart.isSome } } := rfl

theorem State.renewEntry_eq (s : State) (src : NetSource) (c : Channel) :
    s.renewEntry src c = s.setChan c ((s.chan c).withList { (s.chan c).demand.list with
      net := (s.chan c).demand.list.net.set src
        (((s.chan c).demand.list.net.get src).map fun e => { e with deadline := some (s.lapseDeadline src) }) }) := rfl

/-- A code of a DEMAND frame does to its channel what R26 to R30 state. -/
theorem State.takeCode_eq (s : State) (src : NetSource) (c : Channel) (d : DemandItem) :
    s.takeCode src c d =
      s.setChan c ((s.chan c).took (s.profile c) src d s.now (s.lapseDeadline src) s.graceStart.isSome) := by
  unfold State.takeCode ChannelState.took
  split
  · exact s.logCause_eq c _
  · unfold State.applyCode DemandList.afterCode DemandItem.writes
    cases d.code with
    | skip => rw [Bool.false_and, Bool.or_false]; exact (s.setChan_chan c).symm
    | release => simp [State.removeEntry_eq, ChannelState.withList]
    | off => simp [State.writeEntry_eq, classFor_eq]
    | on => simp [State.writeEntry_eq, classFor_eq]
    | dim => simp [State.writeEntry_eq, classFor_eq, dutyOf_eq]
    | flash => simp [State.writeEntry_eq, classFor_eq, patternOf]
    | renew => simp [State.renewEntry_eq, ChannelState.withList]
    | pulse =>
      unfold State.takePulse
      cases own : (s.chan c).demand.list.net.get src with
      | none => simp [State.writeEntry_eq, classFor_eq, pulseLength_eq]
      | some e =>
        obtain ⟨cls, cmd, due⟩ := e
        cases cmd with
        | ask a => simp [Entry.isPulse, State.writeEntry_eq, classFor_eq, pulseLength_eq]
        | pulse n ph => simp [Entry.isPulse, State.renewEntry_eq, ChannelState.withList, own]

/-! ### Lapses (R33, R35) -/

/-- A list after the loss of an entry: the FALLBACK entry the profile calls for, where no network entry is left (R35). -/
def DemandList.fallenBack (l : DemandList) (f : Fallback) (last : Option Ask) : DemandList :=
  if l.hasNetwork then l else { l with fallback := (fallbackFor f last).or l.fallback }

/-- What a lapse of one entry makes of the records of its channel (R33). -/
def ChannelState.lapsed (x : ChannelState) (p : Profile) (src : NetSource) : ChannelState :=
  (x.withList (DemandList.fallenBack { x.demand.list with net := x.demand.list.net.set src none } p.fallbackKind
    x.demand.lastNetworkWinner)).logged .lapse

theorem State.insertFallback_eq (s : State) (c : Channel) :
    s.insertFallback c = s.setChan c ((s.chan c).withList
      ((s.chan c).demand.list.fallenBack (s.profile c).fallbackKind (s.chan c).demand.lastNetworkWinner)) := by
  unfold State.insertFallback DemandList.fallenBack
  split
  · exact (s.setChan_chan c).symm
  · split
    · next none => rw [none]; exact (s.setChan_chan c).symm
    · next e some => rw [some]; rfl

theorem State.lapseEntry_eq (s : State) (src : NetSource) (c : Channel) :
    s.lapseEntry src c =
      ({ s with lapsed := s.lapsed.set src true } : State).setChan c ((s.chan c).lapsed (s.profile c) src) := by
  have removed : (s.removeEntry src c).logCause c .lapse = s.setChan c (((s.chan c).withList { (s.chan c).demand.list with
      net := (s.chan c).demand.list.net.set src none }).logged .lapse) := by
    rw [State.removeEntry_eq, State.logCause_eq, State.chan_setChan_self, State.setChan_setChan]
  unfold State.lapseEntry
  rw [removed]
  dsimp only
  change (({ s with lapsed := s.lapsed.set src true } : State).setChan c _).insertFallback c = _
  rw [State.insertFallback_eq, State.chan_setChan_self, State.setChan_setChan]
  rfl

/-- The lapses of several entries of one channel. -/
theorem State.lapseEntries_eq (c : Channel) : ∀ (l : List NetSource) (s : State),
    l.foldl (fun t src => t.lapseEntry src c) s =
      ({ s with lapsed := l.foldl (fun f src => f.set src true) s.lapsed } : State).setChan c
        (l.foldl (fun x src => x.lapsed (s.profile c) src) (s.chan c))
  | [], s => (s.setChan_chan c).symm
  | src :: l, s => by
    rw [List.foldl_cons, State.lapseEntry_eq, State.lapseEntries_eq c l, State.chan_setChan_self]
    exact State.setChan_setChan ({ s with lapsed := l.foldl (fun f src => f.set src true) (s.lapsed.set src true) } : State)
      c _ _

/-- The sources whose entry on a channel has the deadline, in ascending number. -/
def ChannelState.dueSources (x : ChannelState) (due : Moment) : List NetSource :=
  allNetSources.filter fun src =>
    match x.demand.list.net.get src with
    | some e => decide (e.deadline = some due)
    | none => false

/-- Every entry of channel c with the deadline lapses (R33). -/
theorem State.lapseChannel_eq (s : State) (due : Moment) (c : Channel) :
    s.lapseChannel due c =
      ({ s with lapsed := ((s.chan c).dueSources due).foldl (fun f src => f.set src true) s.lapsed } : State).setChan c
        (((s.chan c).dueSources due).foldl (fun x src => x.lapsed (s.profile c) src) (s.chan c)) :=
  State.lapseEntries_eq c _ s

theorem byChannel_lapse (s : State) (due : Moment) :
    ByChannel (fun t c => t.lapseChannel due c) id (fun t => t = { s with chans := t.chans, lapsed := t.lapsed })
      fun c x => (x.dueSources due).foldl (fun x src => x.lapsed (s.profile c) src) x where
  keeps t c ht := by rw [State.lapseChannel_eq, ht]; rfl
  own t c ht := by
    rw [State.lapseChannel_eq, id, State.chan_setChan_self]
    rw [ht]; rfl
  others t c ht d hd := by rw [State.lapseChannel_eq]; exact State.chan_setChan_ne _ _ hd

/-! ### What R44 compares, and the winner -/

theorem EntryCommand.strength?_content (k : EntryCommand) : k.content.strength? = k.strength? := by
  cases k with
  | ask a => rfl
  | pulse n ph => cases ph <;> rfl

theorem EntryCommand.won_content (k : EntryCommand) : k.content.won = k.won := by
  cases k with
  | ask a => rfl
  | pulse n ph => cases ph <;> rfl

theorem DemandList.get_content (l : DemandList) (src : Source) : l.content.get src = (l.get src).map Entry.content := by
  cases src with
  | net s => cases s <;> rfl
  | line => rfl
  | fallback => rfl

/-- A candidate without what R44 leaves out. -/
def Candidate.content (a : Candidate) : Candidate := { a with entry := a.entry.content }

theorem DemandList.candidates_content (l : DemandList) : l.content.candidates = l.candidates.map Candidate.content := by
  unfold DemandList.candidates DemandList.entries
  simp only [List.filterMap_filterMap, List.map_filterMap, DemandList.get_content]
  congr 1
  funext src
  cases l.get src with
  | none => rfl
  | some e =>
    simp only [Option.map_some, Option.bind_some, Entry.content, EntryCommand.strength?_content]
    cases e.command.strength? <;> rfl

theorem pickWinner_content (l : List Candidate) : pickWinner (l.map Candidate.content) = (pickWinner l).map Candidate.content := by
  cases l with
  | nil => rfl
  | cons a l =>
    simp only [pickWinner, List.map_cons, List.foldl_map, Option.map_some, Option.some.injEq]
    induction l generalizing a with
    | nil => rfl
    | cons b l ih =>
      have beats : b.content.beats a.content = b.beats a := rfl
      rw [List.foldl_cons, List.foldl_cons, beats]
      cases b.beats a with
      | true => exact ih b
      | false => exact ih a

/-- The winner reads nothing that R44 leaves out. -/
theorem DemandList.winner_content (l : DemandList) : l.content.winner = l.winner := by
  unfold DemandList.winner
  rw [DemandList.candidates_content, pickWinner_content, Option.map_map]
  congr 1
  funext a
  simp only [Function.comp, Candidate.content, Entry.content, EntryCommand.won_content]

theorem DemandList.winner_of_not_differs {l m : DemandList} (h : l.differs m = false) : m.winner = l.winner := by
  have content : l.content = m.content := not_not.1 (of_decide_eq_false h)
  rw [← l.winner_content, content, m.winner_content]

/-! ### Clearing (R110) -/

/-- What a clearing makes of the records of its channel. -/
def ChannelState.cleared (x : ChannelState) (p : Profile) : ChannelState :=
  { x with prot := { x.prot with
    retries := 0
    state := if x.prot.state.locked then (if x.prot.heat < Profile.rearmLevel p then .ready else .trippedOverload)
      else x.prot.state } }

theorem State.clearProtection_eq (s : State) (c : Channel) :
    s.clearProtection c =
      ({ s with faults := if (s.chan c).prot.state.locked then s.faults.finish s.now (.lockout c) else s.faults } : State).setChan
        c ((s.chan c).cleared (s.profile c)) := by
  unfold State.clearProtection ChannelState.cleared
  simp only [State.withProt, State.chan_setChan_self, State.setChan_setChan]
  cases (s.chan c).prot.state <;> rfl

end Sys2Proof.Machine
end

section
/-! SUPPORT. How an invariant of the channels is shown of every command: what no channel reads is set aside, a COMMAND frame
comes to what its owner does, and what is left are the events of timers, samples, lines and resets. -/

namespace Sys2Proof.Machine

/-! ### What no channel reads -/

/-- t differs from s at most in what no channel reads: image and store, fault list, ports and time. -/
def Aside (s t : State) : Prop :=
  t = { s with
    image := t.image, store := t.store, faults := t.faults, portA := t.portA, portB := t.portB
    heldStore := t.heldStore, heldCommand := t.heldCommand, now := t.now }

theorem Aside.refl (s : State) : Aside s s := rfl

theorem Aside.trans {s t u : State} (h : Aside s t) (k : Aside t u) : Aside s u := by
  unfold Aside at *
  rw [k, h]

theorem Aside.ite {s a b : State} {P : Prop} [Decidable P] (ha : Aside s a) (hb : Aside s b) :
    Aside s (if P then a else b) := by
  split
  · exact ha
  · exact hb

theorem aside_setPort (s : State) (p : Port) (r : PortRecord) : Aside s (s.setPort p r) := by cases p <;> rfl

theorem aside_queueReply (s : State) (r : Reply) : Aside s (s.queueReply r) := .ite (aside_setPort s _ _) (.refl s)

theorem aside_placeReply (s : State) (r : Reply) : Aside s (s.placeReply r) := .ite rfl (aside_queueReply s r)

theorem aside_placeHeld (s : State) : Aside s s.placeHeld := by
  unfold State.placeHeld
  split
  · exact .trans (t := { s with heldStore := none }) rfl (aside_queueReply _ _)
  · exact .trans (t := { s with heldCommand := none }) rfl (aside_queueReply _ _)
  · exact .refl s

theorem aside_placeStoreReply (s : State) (result : ReplyResult) : Aside s (s.placeStoreReply result) :=
  .ite rfl (aside_queueReply s _)

/-- The events of the ports, the store's completion and the uptime clock. -/
def Instr.isAside : Instr → Bool
  | .storeCompletion _ => true
  | .statusDue _ => true
  | .takeIntoTransmission _ => true
  | .frameSent _ => true
  | .busOff _ => true
  | .linkReturn _ => true
  | .uptimeTick => true
  | _ => false

theorem aside_exec {i : Instr} (h : Instr.isAside i = true) (s : State) : ∃ t, exec i s = .next t ∧ Aside s t := by
  cases i with
  | storeCompletion readBack =>
    refine ⟨_, rfl, ?_⟩
    split
    · exact .refl s
    · exact .ite (.trans (t := { s with store := .idle }) rfl (aside_placeStoreReply _ _))
        (.trans (t := ({ s with store := .idle, image := { readBack.getD s.image with spoiled := true } } : State).occur .storeFailed)
          rfl (aside_placeStoreReply _ _))
  | statusDue port => exact ⟨_, exec_statusDue s port, .trans (t := s.advanceTo _) rfl (aside_setPort _ _ _)⟩
  | takeIntoTransmission port => exact ⟨_, rfl, .ite (aside_setPort s _ _) (.refl s)⟩
  | frameSent port => exact ⟨_, rfl, .ite ((aside_setPort s _ _).trans (aside_placeHeld _)) (aside_setPort s _ _)⟩
  | busOff port =>
    exact ⟨_, rfl, .ite (.ite (.trans (aside_setPort s port _) rfl) (aside_setPort s port _)) (.refl s)⟩
  | linkReturn port =>
    refine ⟨_, rfl, ?_⟩
    split
    · exact .trans (t := s.advanceTo _) rfl (aside_setPort _ _ _)
    · exact .refl s
  | uptimeTick => exact ⟨_, rfl, rfl⟩
  | _ => cases h

/-! ### What the owners of the commands do -/

/-- What the owners of COMMAND frames do keeps P. -/
structure KeptByOwners (P : State → Prop) : Prop where
  aside : ∀ {s t}, Aside s t → P s → P t
  remove : ∀ (s : State) (l : List Channel) (src : NetSource), P s → P ((l.foldl (fun t c => t.removeEntry src c) s).evaluateChanged s)
  clear : ∀ s selector src, P s → P (State.clear selector src s).state
  latch : ∀ s : State, P s → P s.clearLatch
  floor : ∀ (s : State) src f, P s → P (s.setFloor src f)
  sync : ∀ s mask src, P s → P (State.flashSync mask src s).state
  logs : ∀ (s : State) l, P s → P (s.clearLogs l)
  write : ∀ (s : State) (n : ConfigField) (v : Nat), n.inRange v = true → s.mayWrite n = true → P s → P (s.applyWrite n v)

section
variable {P : State → Prop}

theorem KeptByOwners.takeCommand (h : KeptByOwners P) {s : State} {owner : NetSource → State → Taken} (rx : RxHeader)
    (code : Nat) (ok : P s) (own : ∀ src, P (owner src s).state) : P (s.takeCommand rx code owner) := by
  unfold State.takeCommand
  split
  · exact ok
  · next src _ =>
    split
    · exact ok
    · unfold Taken.finish
      split
      · exact own src
      · exact h.aside (aside_placeReply _ _) (own src)

/-- A COMMAND frame keeps what its owner keeps. -/
theorem KeptByOwners.frame (h : KeptByOwners P) {i : Instr} {rx : RxHeader} (hi : commandHeader i = some rx) {s : State}
    (ok : P s) : ∃ t, exec i s = .next t ∧ P t := by
  cases i with
  | release rx args =>
    refine ⟨_, rfl, h.takeCommand rx 1 ok fun src => ?_⟩
    unfold State.release
    split
    · exact ok
    · exact h.remove s _ src ok
  | clearChannel rx args => exact ⟨_, rfl, h.takeCommand rx 2 ok fun src => h.clear s _ src ok⟩
  | clearEmergency rx args =>
    refine ⟨_, rfl, h.takeCommand rx 3 ok fun src => ?_⟩
    unfold State.clearEmergency
    split
    · exact ok
    · split
      · exact ok
      · dsimp only
        split <;> [exact h.latch s ok; exact ok]
  | clearFaults rx args => exact ⟨_, rfl, h.takeCommand rx 4 ok fun src => h.aside (s := s) rfl ok⟩
  | shedFloor rx args =>
    refine ⟨_, rfl, h.takeCommand rx 5 ok fun src => ?_⟩
    unfold State.shedFloor
    split <;> [exact ok; exact h.floor s src _ ok]
  | flashSync rx args => exact ⟨_, rfl, h.takeCommand rx 6 ok fun src => h.sync s _ src ok⟩
  | queryChannel rx args => exact ⟨_, rfl, h.takeCommand rx 7 ok fun src => by rw [State.queryOf_state]; exact ok⟩
  | queryProtection rx args => exact ⟨_, rfl, h.takeCommand rx 8 ok fun src => by rw [State.queryOf_state]; exact ok⟩
  | queryEntry rx args => exact ⟨_, rfl, h.takeCommand rx 9 ok fun src => by rw [State.queryEntry_state]; exact ok⟩
  | queryZone rx args => exact ⟨_, rfl, h.takeCommand rx 10 ok fun src => by rw [State.queryZone_state]; exact ok⟩
  | readFault rx args => exact ⟨_, rfl, h.takeCommand rx 11 ok fun src => by rw [State.readFault_state]; exact ok⟩
  | readLimitLog rx args =>
    refine ⟨_, rfl, h.takeCommand rx 12 ok fun src => ?_⟩
    unfold State.readLimitLog
    split
    · exact ok
    · dsimp only
      split <;> [exact h.logs s _ ok; exact ok]
  | configRead rx args => exact ⟨_, rfl, h.takeCommand rx 13 ok fun src => by rw [State.configRead_state]; exact ok⟩
  | configWrite rx args =>
    refine ⟨_, rfl, h.takeCommand rx 14 ok fun src => ?_⟩
    rcases State.configWrite_state _ _ _ _ src s with e | ⟨n, range, -, may, e⟩
    · rw [e]; exact ok
    · rw [e]; exact h.write s n _ range may ok
  | configStore rx args =>
    refine ⟨_, rfl, h.takeCommand rx 15 ok fun src => ?_⟩
    unfold State.configStore
    split
    · exact ok
    · split <;> [exact ok; exact h.aside (s := s) rfl ok]
  | unknownCommand rx code args => exact ⟨_, rfl, h.takeCommand rx 0 ok fun _ => ok⟩
  | _ => cases hi

/-- An invariant of the channels: kept by what the owners of COMMAND frames do and by every other event. -/
theorem KeptByOwners.step (h : KeptByOwners P) (queue : ∀ s l, P s → P { s with pending := l })
    (events : ∀ i s, ((commandHeader i).isSome || Instr.isAside i) = false → P s → ∃ t, exec i s = .next t ∧ P t)
    {s t : State} (ok : P s) (k : step s = .next t) : P t := by
  refine step_keeps queue (fun s n => h.aside (s := s) rfl) (fun i s t ok k => ?_) ok k
  have next : ∃ t, exec i s = .next t ∧ P t := by
    cases hi : commandHeader i with
    | some rx => exact h.frame hi ok
    | none =>
      cases ha : Instr.isAside i with
      | true =>
        obtain ⟨t, e, a⟩ := aside_exec ha s
        exact ⟨t, e, h.aside a ok⟩
      | false => exact events i s (by rw [hi, ha]; rfl) ok
  obtain ⟨u, e, hu⟩ := next
  rw [k] at e
  obtain rfl := Host.Outcome.next.inj e
  exact hu

end

end Sys2Proof.Machine
end

section
/-! SUPPORT. No change of an input is left without its evaluation (R47): what the settledness of a channel reads, which
updates leave that as it is, and for every command the channels whose inputs it changes and evaluates. -/

namespace Sys2Proof.Machine

/-! ### What settledness reads -/

/-- What the settledness of channel c reads, beside its demand list, is the same in both states. -/
structure SameLimits (s t : State) (c : Channel) : Prop where
  limits : ∀ cls, t.limitInputs c cls = s.limitInputs c cls
  winner : (t.chan c).arb.winner = (s.chan c).arb.winner
  granted : (t.chan c).arb.granted = (s.chan c).arb.granted
  status : (t.chan c).arb.status = (s.chan c).arb.status
  handed : (t.chan c).sw.granted = (s.chan c).sw.granted
  cls : (t.chan c).sw.cls = (s.chan c).sw.cls

/-- An update that leaves channel c settled if it was. -/
structure Quiet (s t : State) (c : Channel) : Prop extends SameLimits s t c where
  asked : (t.chan c).demand.list.winner = (s.chan c).demand.list.winner

theorem SameLimits.refl (s : State) (c : Channel) : SameLimits s s c := ⟨fun _ => rfl, rfl, rfl, rfl, rfl, rfl⟩

theorem SameLimits.trans {s t u : State} {c : Channel} (h : SameLimits s t c) (k : SameLimits t u c) : SameLimits s u c where
  limits cls := (k.limits cls).trans (h.limits cls)
  winner := k.winner.trans h.winner
  granted := k.granted.trans h.granted
  status := k.status.trans h.status
  handed := k.handed.trans h.handed
  cls := k.cls.trans h.cls

theorem Quiet.refl (s : State) (c : Channel) : Quiet s s c := ⟨.refl s c, rfl⟩

theorem Quiet.trans {s t u : State} {c : Channel} (h : Quiet s t c) (k : Quiet t u c) : Quiet s u c :=
  ⟨h.toSameLimits.trans k.toSameLimits, k.asked.trans h.asked⟩

theorem Quiet.ite {s a b : State} {c : Channel} {P : Prop} [Decidable P] (ha : Quiet s a c) (hb : Quiet s b c) :
    Quiet s (if P then a else b) c := by
  split
  · exact ha
  · exact hb

theorem Quiet.foldl {α : Type} {f : State → α → State} {c : Channel} (h : ∀ s a, Quiet s (f s a) c) :
    ∀ (l : List α) (s : State), Quiet s (l.foldl f s) c
  | [], s => .refl s c
  | a :: l, s => (h s a).trans (Quiet.foldl h l (f s a))

theorem SameLimits.foldl {α : Type} {f : State → α → State} {c : Channel} (h : ∀ s a, SameLimits s (f s a) c) :
    ∀ (l : List α) (s : State), SameLimits s (l.foldl f s) c
  | [], s => .refl s c
  | a :: l, s => (h s a).trans (SameLimits.foldl h l (f s a))

theorem Quiet.judge {s t : State} {c : Channel} (h : Quiet s t c) : t.judge c = s.judge c := by
  unfold State.judge
  simp only [h.asked, h.limits]

theorem Quiet.settled {s t : State} {c : Channel} (h : Quiet s t c) (k : s.Settled c) : t.Settled c := by
  obtain ⟨winner, granted, status, handed, cls⟩ := k
  refine ⟨?_, ?_, ?_, ?_, ?_⟩
  · rw [h.judge, h.winner]; exact winner
  · rw [h.judge, h.granted]; exact granted
  · rw [h.judge, h.status]; exact status
  · rw [h.handed, h.granted]; exact handed
  · rw [h.cls, h.winner]; exact cls

/-- An update that leaves every channel settled. -/
def Settles (s t : State) : Prop := s.AllSettled → t.AllSettled

theorem Settles.of_quiet {s t : State} (h : ∀ c, Quiet s t c) : Settles s t := fun k c => (h c).settled (k c)

theorem Settles.refl (s : State) : Settles s s := id

theorem Settles.trans {s t u : State} (h : Settles s t) (k : Settles t u) : Settles s u := k ∘ h

theorem Settles.ite {s a b : State} {P : Prop} [Decidable P] (ha : P → Settles s a) (hb : ¬P → Settles s b) :
    Settles s (if P then a else b) := by
  split
  · next h => exact ha h
  · next h => exact hb h

/-! ### Evaluations settle -/

/-- Evaluations of the channels that an update has unsettled leave all channels settled. -/
theorem settles_evaluateEach {s u : State} {l : List Channel} (h : ∀ c, c ∉ l → Quiet s u c) :
    Settles s (u.evaluateEach l) := fun k c => by
  obtain ⟨frame, kept, others, settled⟩ := evaluateEach_evaluated u l
  by_cases hc : c ∈ l
  · exact settled c hc
  · exact ((h c hc).settled (k c)).other frame kept (others c hc)

theorem settles_evaluate {s u : State} {c : Channel} (h : ∀ d, d ≠ c → Quiet s u d) : Settles s (u.evaluate c) :=
  settles_evaluateEach (l := [c]) fun d hd => h d (by simpa using hd)

theorem evaluateAll_allSettled (s : State) : s.evaluateAll.AllSettled := fun c =>
  (evaluateAll_evaluated s).2.2.2 c (mem_allChannels c)

/-- An update of demand lists whose changes are handed over (R44). -/
theorem settles_evaluateChanged {s u : State} (h : ∀ c, SameLimits s u c) : Settles s (u.evaluateChanged s) :=
  settles_evaluateEach fun c hc => by
    have same : (s.chan c).demand.list.differs (u.chan c).demand.list = false := by
      simpa [mem_allChannels] using hc
    exact ⟨h c, DemandList.winner_of_not_differs same⟩

/-! ### Quiet updates -/

/-- A write of one channel that keeps what the limiter chain and the evaluation read of it, its list aside. -/
theorem sameLimits_setChan (s : State) (c : Channel) (x : ChannelState) (prot : x.prot.state = (s.chan c).prot.state)
    (winner : x.arb.winner = (s.chan c).arb.winner) (granted : x.arb.granted = (s.chan c).arb.granted)
    (status : x.arb.status = (s.chan c).arb.status) (handed : x.sw.granted = (s.chan c).sw.granted)
    (cls : x.sw.cls = (s.chan c).sw.cls) (d : Channel) : SameLimits s (s.setChan c x) d := by
  by_cases e : d = c
  · subst e
    refine ⟨fun k => ?_, ?_, ?_, ?_, ?_, ?_⟩
    · unfold State.limitInputs; rw [State.chan_setChan_self, prot]; rfl
    all_goals rw [State.chan_setChan_self]; assumption
  · refine ⟨fun k => ?_, ?_, ?_, ?_, ?_, ?_⟩
    · unfold State.limitInputs; rw [State.chan_setChan_ne _ _ e]; rfl
    all_goals rw [State.chan_setChan_ne _ _ e]

theorem quiet_setChan_ne {s : State} {c d : Channel} (x : ChannelState) (h : d ≠ c) : Quiet s (s.setChan c x) d := by
  refine ⟨⟨fun k => ?_, ?_, ?_, ?_, ?_, ?_⟩, ?_⟩
  · unfold State.limitInputs; rw [State.chan_setChan_ne _ _ h]; rfl
  all_goals rw [State.chan_setChan_ne _ _ h]

theorem quiet_setChan (s : State) (c : Channel) (x : ChannelState) (prot : x.prot.state = (s.chan c).prot.state)
    (list : x.demand.list = (s.chan c).demand.list)
    (winner : x.arb.winner = (s.chan c).arb.winner) (granted : x.arb.granted = (s.chan c).arb.granted)
    (status : x.arb.status = (s.chan c).arb.status) (handed : x.sw.granted = (s.chan c).sw.granted)
    (cls : x.sw.cls = (s.chan c).sw.cls) (d : Channel) : Quiet s (s.setChan c x) d := by
  refine ⟨sameLimits_setChan s c x prot winner granted status handed cls d, ?_⟩
  rw [State.chan_setChan]
  split
  · next e => rw [list, e]
  · rfl

/-- An update that writes no channel and none of latch, hold, level and profiles. -/
theorem quiet_frame (s : State) (lapsed graceStart scan queue gens lines faults portA portB heldStore heldCommand now) (c : Channel) :
    Quiet s { s with
      lapsed := lapsed, graceStart := graceStart, scan := scan, queue := queue, gens := gens, lines := lines,
      faults := faults, portA := portA, portB := portB, heldStore := heldStore, heldCommand := heldCommand,
      now := now } c := ⟨⟨fun _ => rfl, rfl, rfl, rfl, rfl, rfl⟩, rfl⟩

theorem quiet_setLine (s : State) (l : Line) (r : LineRecord) (c : Channel) : Quiet s (s.setLine l r) c := by
  cases l <;> exact ⟨⟨fun _ => rfl, rfl, rfl, rfl, rfl, rfl⟩, rfl⟩

/-- A supervisor record with the same hold and level. -/
theorem quiet_sup {s : State} {v : Supervisor} (hold : v.hold = s.sup.hold) (level : v.level = s.sup.level) (c : Channel) :
    Quiet s { s with sup := v } c := by
  refine ⟨⟨fun k => ?_, rfl, rfl, rfl, rfl, rfl⟩, rfl⟩
  unfold State.limitInputs
  simp only [hold, level]
  rfl

/-- What an operation of the switch controller does unsettles nothing. -/
theorem Touches.quiet {c : Channel} {s t : State} (h : Touches c s t) (d : Channel) : Quiet s t d := by
  obtain ⟨demand, arb, granted, cls⟩ := h.records d
  exact ⟨⟨h.frame.limitInputs h.kept d, by rw [arb], by rw [arb], by rw [arb], granted, cls⟩, by rw [demand]⟩

theorem Evaluated.quiet {s t : State} {l : List Channel} (h : s.Evaluated t l) {c : Channel} (hc : c ∉ l) : Quiet s t c := by
  obtain ⟨frame, kept, others, -⟩ := h
  refine ⟨⟨frame.limitInputs kept c, ?_, ?_, ?_, ?_, ?_⟩, by rw [(kept c).1]⟩ <;>
    rcases others c hc with e | ⟨-, -, -, -, arb, granted, cls⟩
  · rw [e]
  · rw [arb]
  · rw [e]
  · rw [arb]
  · rw [e]
  · rw [arb]
  · rw [e]
  · exact granted
  · rw [e]
  · exact cls

/-! ### The demand table -/

theorem quiet_logCause (s : State) (c : Channel) (k : LimitCause) (d : Channel) : Quiet s (s.logCause c k) d := by
  rw [State.logCause_eq]
  apply quiet_setChan <;> rfl

theorem sameLimits_withList (s : State) (c : Channel) (l : DemandList) (d : Channel) :
    SameLimits s (s.setChan c ((s.chan c).withList l)) d := by
  apply sameLimits_setChan <;> rfl

theorem sameLimits_takeCode (s : State) (src : NetSource) (c : Channel) (i : DemandItem) (d : Channel) :
    SameLimits s (s.takeCode src c i) d := by
  rw [State.takeCode_eq]
  unfold ChannelState.took
  split
  · apply sameLimits_setChan <;> rfl
  · apply sameLimits_setChan <;> rfl

theorem quiet_clearLapsed (s : State) (src : NetSource) (c : Channel) : Quiet s (s.clearLapsed src) c :=
  .ite (quiet_frame s ..) (.refl s c)

theorem settles_takeDemand (s : State) (src : NetSource) (g : Fin 4) (data : Vector Byte 8) :
    Settles s (s.takeDemand src g data) := by
  refine (Settles.of_quiet (quiet_clearLapsed s src)).trans (.ite (fun _ => .of_quiet fun c => ?_) fun _ => ?_)
  · exact .foldl (fun t i => .ite (.refl t c) (quiet_logCause t _ _ c)) _ _
  · exact settles_evaluateChanged fun c => .foldl (fun t i => sameLimits_takeCode t _ _ _ c) _ _

theorem settles_lapseAll (s : State) (due : Moment) : Settles s (s.lapseAll due) := by
  have h := byChannel_lapse s due
  have frame := h.foldl_keeps allChannels s rfl
  refine settles_evaluateEach fun c hc => ?_
  have none : (s.chan c).dueSources due = [] := by
    have nothing : ∀ src, s.fallsDue due src c = false := by
      simpa [mem_allChannels, mem_allNetSources] using hc
    exact List.filter_eq_nil_iff.2 fun src _ => by
      have := nothing src
      exact Bool.eq_false_iff.1 this
  have chan : (allChannels.foldl (fun t c => t.lapseChannel due c) s).chan c = s.chan c := by
    rw [h.foldl_chan nodup_allChannels rfl, if_pos (mem_allChannels c), none]; rfl
  have quiet : Quiet s (allChannels.foldl (fun t c => t.lapseChannel due c) s) c := by
    refine ⟨⟨fun k => ?_, ?_, ?_, ?_, ?_, ?_⟩, ?_⟩
    · unfold State.limitInputs State.profile; rw [chan, frame]
    all_goals rw [chan]
  exact quiet.trans (quiet_frame _ ..)

theorem settles_endGrace (s : State) : Settles s s.endGrace := by
  refine .trans (t := { s with graceStart := none }) (.of_quiet fun _ => quiet_frame s ..) (settles_evaluateChanged fun c => ?_)
  refine .foldl (fun t d => ?_) _ _
  split
  · exact sameLimits_withList t d _ c
  · exact .refl t c

theorem settles_removeService (s : State) : Settles s s.removeService :=
  settles_evaluateChanged fun c => .foldl (fun t d => sameLimits_withList t d _ c) _ _

theorem settles_recomputeLines (s : State) (concerned : Channel → Bool) : Settles s (s.recomputeLines concerned) :=
  settles_evaluateChanged fun c => .foldl (fun t d => sameLimits_withList t d _ c) _ _

/-! ### Latch, hold and level -/

theorem settles_evaluateAll (s u : State) : Settles s u.evaluateAll := fun _ => evaluateAll_allSettled u

theorem settles_setFloor (s : State) (src : NetSource) (f : Option Floor) : Settles s (s.setFloor src f) := by
  obtain ⟨changed, same⟩ := setFloor_evaluates s src f
  by_cases level : (s.setFloor src f).sup.level = s.sup.level
  · rw [same level]
    exact .of_quiet (quiet_sup (by unfold State.setFloor; rw [evaluateLevel_sup]; rfl) level)
  · exact fun _ c => (changed level).2.2.2.2 c (mem_allChannels c)

theorem settles_deliverZone (s : State) (volts : Nat) : Settles s (s.deliverZone volts) := by
  obtain ⟨changed, same⟩ := deliverZone_evaluates s volts
  by_cases h : (s.deliverZone volts).sup.level = s.sup.level ∧ (s.deliverZone volts).sup.hold = s.sup.hold
  · rw [same h.1 h.2]
    exact .of_quiet fun c => (quiet_sup h.2 h.1 c).trans (quiet_frame _ ..)
  · exact fun _ c => (changed (by tauto)).2.2.2.2 c (mem_allChannels c)

theorem settles_evaluateLevel {s u : State} (h : u.sup.level = s.sup.level → ∀ c, Quiet s u c) :
    Settles s (u.evaluateLevel s) :=
  .ite (fun same => .of_quiet (h same)) fun _ => settles_evaluateAll s u

/-- The supervisor after the comparison of a feeder fuse tick (R149). -/
def State.feederCompared (s : State) : Supervisor :=
  let now' := max s.now (s.sup.lastTick + 10)
  Supervisor.compare { s.sup with lastTick := now' } s.cfg.zone now'

/-- The part after a feeder fuse tick, before the evaluation that a changed L causes (R88, R149, R150, R154). -/
def State.feederTicked (s : State) : State :=
  let now' := max s.now (s.sup.lastTick + 10)
  let v := s.feederCompared
  { s with
    now := now'
    sup := { v with
      level := v.effective
      heat := heatStep s.cfg.zone.feederShift (currentRatio s.scan.feeder s.cfg.zone.feederNominal ^ 2) v.heat }
    faults := s.faults.report now'
      (flagReport (decide (1 ≤ s.sup.thermalLevel)) (decide (1 ≤ v.thermalLevel)) .feederWarm) }

theorem exec_feederFuseTick (s : State) : exec .feederFuseTick s = .next (s.feederTicked.evaluateLevel s) := rfl

/-- A comparison leaves the hold. -/
theorem Supervisor.compare_hold (v : Supervisor) (z : Zone) (t : Moment) : (v.compare z t).hold = v.hold := by
  rw [Supervisor.compare_eq]

theorem settles_feederTick (s : State) : Settles s (s.feederTicked.evaluateLevel s) :=
  settles_evaluateLevel fun same c =>
    (quiet_sup (s := s) (v := s.feederTicked.sup) (Supervisor.compare_hold _ _ _) same c).trans (quiet_frame _ ..)

/-! ### The lines -/

theorem settles_endServiceFloor (s : State) : Settles s s.endServiceFloor := by
  unfold State.endServiceFloor
  split
  · exact .refl s
  · exact settles_setFloor s _ _

theorem settles_handOn (s : State) (l : Line) (floorFirst : Bool) : Settles s (s.handOn l floorFirst) := by
  unfold State.handOn
  split
  · exact settles_recomputeLines _ _
  · exact .ite (fun _ => settles_evaluateAll _ _) fun _ => .refl _
  · refine .ite (fun _ => .refl _) fun _ => .ite (fun _ => ?_) fun _ => ?_
    · exact (settles_endServiceFloor _).trans (settles_removeService _)
    · exact (settles_removeService _).trans (settles_endServiceFloor _)

theorem settles_settle (s : State) (l : Line) (floorFirst : Bool) : Settles s (s.settle l floorFirst) :=
  .trans (.of_quiet (quiet_setLine s l _)) (settles_handOn _ l floorFirst)

theorem settles_reconsider (s : State) (l : Line) : Settles s (s.reconsider l) :=
  .ite (fun _ => .of_quiet (quiet_setLine s l _))
    fun _ => .ite (fun _ => settles_settle s l false) fun _ => .of_quiet (quiet_setLine s l _)

/-! ### The protection unit -/

/-- t differs from s at most in the protection record of channel c and in the fault list. -/
structure ProtFrame (c : Channel) (s t : State) : Prop where
  frame : t = { s with chans := t.chans, faults := t.faults }
  others : ∀ d, d ≠ c → t.chan d = s.chan d
  own : t.chan c = { s.chan c with prot := (t.chan c).prot }

theorem ProtOnly.protFrame {c : Channel} {s t : State} (h : ProtOnly c s t) : ProtFrame c s t := ⟨h.frame, h.others, h.own⟩

theorem protFrame_withProt (s : State) (c : Channel) (f : ProtRecord → ProtRecord) : ProtFrame c s (s.withProt c f) :=
  ⟨rfl, fun _ hd => State.chan_setChan_ne _ _ hd, by simp [State.withProt]⟩

theorem ProtFrame.trans {c : Channel} {s t u : State} (h : ProtFrame c s t) (k : ProtFrame c t u) : ProtFrame c s u :=
  ⟨by rw [k.frame, h.frame], fun d hd => (k.others d hd).trans (h.others d hd), by rw [k.own, h.own]⟩

theorem ProtFrame.quiet_ne {c d : Channel} {s t : State} (h : ProtFrame c s t) (hd : d ≠ c) : Quiet s t d := by
  refine ⟨⟨fun k => ?_, ?_, ?_, ?_, ?_, ?_⟩, ?_⟩
  · unfold State.limitInputs State.profile; rw [h.others d hd, h.frame]
  all_goals rw [h.others d hd]

/-- A protection record written with the state kept unsettles nothing (R47). -/
theorem ProtFrame.quiet {c : Channel} {s t : State} (h : ProtFrame c s t)
    (state : (t.chan c).prot.state = (s.chan c).prot.state) (d : Channel) : Quiet s t d := by
  by_cases e : d = c
  · subst e
    refine ⟨⟨fun k => ?_, ?_, ?_, ?_, ?_, ?_⟩, ?_⟩
    · unfold State.limitInputs State.profile; rw [state, h.frame]
    all_goals rw [h.own]
  · exact h.quiet_ne e

/-- A move of the protection state is evaluated (R47, R96). -/
theorem settles_evaluateMoved {c : Channel} {s t : State} (h : ProtFrame c s t) : Settles s (t.evaluateMoved s c) :=
  .ite (fun same => .of_quiet (h.quiet same)) fun _ => settles_evaluate fun _ => h.quiet_ne

theorem settles_fuseTick (s : State) (c : Channel) : ∃ t, exec (.fuseTick c) s = .next t ∧ Settles s t := by
  refine ⟨_, rfl, .trans (.of_quiet (s := s) (fun d => ?_)) (settles_evaluateMoved
    ((protOnly_compareLevels _ c).protFrame.trans (protFrame_withProt _ c _)))⟩
  exact (quiet_frame s (now := max s.now ((s.chan c).prot.lastTick + 10)) ..).trans
    ((protFrame_withProt _ c _).quiet (by simp [State.withProt]) d)

@[simp] theorem State.withProt_chan_self (s : State) (c : Channel) (f : ProtRecord → ProtRecord) :
    (s.withProt c f).chan c = { s.chan c with prot := f (s.chan c).prot } := State.chan_setChan_self s c _

/-- The open-load check moves no protection state (R112). -/
theorem State.checkOnState_state (s : State) (c : Channel) (current : Nat) :
    ((s.checkOnState c current).chan c).prot.state = (s.chan c).prot.state := by
  have ended (t : State) : ((t.endOpenLoadOn c).chan c).prot.state = (t.chan c).prot.state := by
    unfold State.endOpenLoadOn
    split
    · simp
    · rfl
  unfold State.checkOnState
  dsimp only
  split
  · split
    · exact ended s
    · split
      · split
        · simp
        · simp
      · simp [ended]
  · rfl

theorem settles_deliverCurrent (s : State) (c : Channel) (current : Nat) (saturated : Bool) :
    Settles s (s.deliverCurrent c current saturated) := by
  refine .ite (fun _ => .ite (fun _ => ?_) fun _ => ?_) fun _ => .refl s
  · exact settles_evaluate fun _ => (protOnly_trip s c _).protFrame.quiet_ne
  · exact .of_quiet ((protOnly_checkOnState s c _).protFrame.quiet (s.checkOnState_state c _))

/-- A check sample moves no protection state (R114, R115). -/
theorem State.deliverVoltage_state (s : State) (c : Channel) (wasOff : Bool) (voltage supply : Nat) :
    ((s.deliverVoltage c wasOff voltage supply).chan c).prot.state = (s.chan c).prot.state := by
  have ended (t : State) (half eight : Bool) : ((t.endOffState c half eight).chan c).prot.state = (t.chan c).prot.state := by
    unfold State.endOffState
    dsimp only
    split <;> split <;> simp
  unfold State.deliverVoltage State.checkSample
  dsimp only
  split
  · rw [ended]
    generalize countCheck _ _ = n
    split
    · split
      · split <;> simp
      · split <;> simp
    · simp
  · rfl

theorem settles_deliver (r s : State) (d : Delivery) : Settles s (r.deliver s d) := by
  unfold State.deliver
  split
  · exact settles_deliverZone s _
  · dsimp only
    split
    · exact settles_deliverCurrent s _ _ _
    · exact .of_quiet ((protOnly_deliverVoltage s ..).protFrame.quiet (s.deliverVoltage_state ..))
    · exact .refl s

/-- A sense record unsettles nothing. -/
theorem quiet_withSense (s : State) (c : Channel) (f : SenseRecord → SenseRecord) (d : Channel) :
    Quiet s (s.withSense c f) d := by
  unfold State.withSense
  apply quiet_setChan <;> rfl

theorem settles_foldl {α : Type} {f : State → α → State} (h : ∀ s a, Settles s (f s a)) :
    ∀ (l : List α) (s : State), Settles s (l.foldl f s)
  | [], s => .refl s
  | a :: l, s => (h s a).trans (settles_foldl h l (f s a))

/-- CLEAR_CHANNEL of several channels in a row (R110). -/
theorem byChannel_clear (s : State) :
    ByChannel State.clearProtection id (fun t => t = { s with chans := t.chans, faults := t.faults })
      fun c x => x.cleared (s.profile c) where
  keeps t c ht := by rw [State.clearProtection_eq, ht]; rfl
  own t c ht := by rw [State.clearProtection_eq, id, State.chan_setChan_self]; rw [ht]; rfl
  others t c ht d hd := by rw [State.clearProtection_eq]; exact State.chan_setChan_ne _ _ hd

theorem settles_clear (s : State) (selector : Nat) (src : NetSource) : Settles s (State.clear selector src s).state := by
  unfold State.clear
  split
  · unfold State.clearOne
    split
    · exact settles_evaluateMoved (protOnly_clearProtection s _).protFrame
    · exact .refl s
  · split
    · have h := byChannel_clear s
      have frame := h.foldl_keeps (allChannels.filter (s.mayClear src)) s rfl
      refine settles_evaluateEach fun c hc => ?_
      have chan := h.foldl_chan (nodup_allChannels.filter (s.mayClear src)) (s := s) rfl c
      have state : (((allChannels.filter (s.mayClear src)).foldl State.clearProtection s).chan c).prot.state =
          (s.chan c).prot.state := by
        rw [chan]
        split
        · next may =>
          have unlocked : (s.chan c).prot.state.locked = false :=
            Bool.eq_false_iff.2 fun locked => hc (List.mem_filter.2 ⟨may, locked⟩)
          simp [ChannelState.cleared, unlocked]
        · rfl
      refine ⟨⟨fun k => ?_, ?_, ?_, ?_, ?_, ?_⟩, ?_⟩
      · unfold State.limitInputs State.profile; rw [state, frame]
      all_goals rw [chan]; split <;> rfl
    · exact .refl s

/-! ### CONFIG_WRITE -/

/-- A write of the working configuration reaches the limiter chain by the profile it writes only. -/
theorem quiet_cfg {s : State} {g : WorkingConfig} {c : Channel} (h : g.profile[c] = s.cfg.profile[c]) :
    Quiet s { s with cfg := g } c := by
  refine ⟨⟨fun k => ?_, rfl, rfl, rfl, rfl, rfl⟩, rfl⟩
  unfold State.limitInputs State.profile
  dsimp only
  rw [h]
  rfl

theorem quiet_admitQueued (s : State) (c : Channel) : Quiet s s.admitQueued c := (touches_admit s 0).quiet c

theorem settles_zoneEffect (s : State) (f : ZoneField) : Settles s (s.zoneEffect f) := by
  have retest (t : State) : Settles t t.retestRuns := by
    refine .of_quiet (quiet_sup ?_ ?_)
    · unfold Supervisor.retest; split <;> rfl
    · unfold Supervisor.retest; split <;> rfl
  cases f with
  | lv1 => exact retest s
  | lv2 => exact retest s
  | lv3 => exact retest s
  | admissionInterval => exact .of_quiet (quiet_admitQueued s)
  | startGrace =>
    change Settles s s.testGrace
    unfold State.testGrace
    split
    · exact .refl s
    · exact .ite (fun _ => settles_endGrace s) fun _ => .refl s
  | _ => exact .refl s

theorem settles_lineEffect (s : State) (i : Fin 4) (f : LineField) (old : LineSettings) : Settles s (s.lineEffect i f old) := by
  cases f with
  | polarity => exact settles_reconsider s _
  | debounce =>
    change Settles s (s.testDebounce i)
    unfold State.testDebounce
    split
    · exact .refl s
    · exact .ite (fun _ => settles_settle s _ _) fun _ => .refl s
  | mask => exact settles_recomputeLines s _
  | command => exact settles_recomputeLines s _

/-- A changed profile field writes the protection record of its channel at most (R4). -/
theorem protFrame_profileEffect (s : State) (c : Channel) (f : ProfileField) : ProtFrame c s (s.profileEffect c f) := by
  unfold State.profileEffect
  split
  · exact protFrame_withProt s c _
  · exact protFrame_withProt s c _
  · exact protFrame_withProt s c _
  · exact (ProtOnly.refl c s).protFrame

theorem settles_applyWrite (s : State) (n : ConfigField) (v : Nat) : Settles s (s.applyWrite n v) := by
  unfold State.applyWrite
  refine .ite (fun _ => ?_) fun _ => ?_
  · cases n with
    | profile c f => exact settles_evaluate fun d _ => .refl s d
    | _ => exact .refl s
  · have others (same : ∀ c : Channel, (s.cfg.write n v).profile[c] = s.cfg.profile[c]) :
        Settles s { s with cfg := s.cfg.write n v } := .of_quiet fun c => quiet_cfg (same c)
    cases n with
    | profile c f =>
      refine settles_evaluate fun d hd => .trans (quiet_cfg ?_) ((protFrame_profileEffect _ c f).quiet_ne hd)
      rw [WorkingConfig.profile_write, if_neg hd]
    | zone f => exact (others fun _ => rfl).trans (settles_zoneEffect _ f)
    | lapse src => exact others fun _ => rfl
    | pattern p f => exact others fun _ => rfl
    | line i f => exact (others fun _ => rfl).trans (settles_lineEffect _ i f _)

/-! ### The resets -/

/-- The limiter chain leaves OFF as it is (R53). -/
theorem limitChain_off (i : LimitInputs) : limitChain i .off = ⟨.off, CauseSet.empty⟩ := by
  have cut (c k) : (⟨.off, CauseSet.empty⟩ : Limited).cut c k = ⟨.off, CauseSet.empty⟩ := by simp [Limited.cut]
  simp [limitChain, limitProtection, limitEmergency, limitOvervoltage, limitShed, limitDerate, limitConvert, cut]

/-- A channel without demands, granted OFF and handed OFF, is settled whatever its protection state. -/
theorem settled_atReset {s : State} {c : Channel} {t : Moment} {r : ProtRecord}
    (h : s.chan c = { ChannelState.atReset t with prot := r }) : s.Settled c := by
  have noWinner : (s.chan c).demand.list.winner = none := by rw [h]; rfl
  have judged : s.judge c = (none, ⟨.off, CauseSet.empty⟩) := by
    unfold State.judge
    rw [noWinner]
    exact congrArg (Prod.mk _) (limitChain_off _)
  unfold State.Settled
  rw [judged, h]
  exact ⟨rfl, rfl, rfl, rfl, rfl⟩

theorem settles_afterReset (s : State) (cause : ResetCause) (pins : ResetPins) : Settles s (s.afterReset cause pins) := by
  have load (t : State) : Settles t t.reportLoad := .ite (fun _ => .refl t) fun _ => .of_quiet fun _ => quiet_frame t ..
  have grace (t : State) : Settles t t.startGraceAtReset := .ite (fun _ => settles_endGrace t) fun _ => .refl t
  refine .trans (fun _ c => settled_atReset (c := c) (t := s.now)
    (r := (s.chan c).prot.afterReset cause s.imageAfterReset.load.profile[c] s.now) ?_) ((load _).trans (grace _))
  exact Vector.getElem_ofFn ..

/-! ### The end of a retry delay (R103) -/

/-- The limiter chain tells TRIPPED, LOCKOUT and WARM from the rest, and no more of the protection state (R54, R58). -/
theorem limitChain_congr_prot {i j : LimitInputs} (same : j = { i with prot := j.prot })
    (tripped : j.prot.tripped = i.prot.tripped) (locked : j.prot.locked = i.prot.locked)
    (warm : decide (j.prot = .warm) = decide (i.prot = .warm)) (o : Output) : limitChain j o = limitChain i o := by
  rw [same]
  unfold limitChain limitProtection limitDerate
  dsimp only
  rw [tripped, locked, warm]
  rfl

theorem settles_retryExpired {s : State} {c : Channel} {ends : Moment}
    (short : (s.chan c).prot.state = .trippedShort (.running ends)) :
    Settles s (s.withProt c fun r => { r with state := .trippedShort .expired }) := fun ok d => by
  by_cases e : d = c
  · subst e
    have judged : (s.withProt d fun r => { r with state := .trippedShort .expired }).judge d = s.judge d := by
      unfold State.judge
      simp only [State.withProt_chan_self]
      refine congrArg (Prod.mk _) (limitChain_congr_prot ?_ ?_ ?_ ?_ _)
      · unfold State.limitInputs; rfl
      all_goals simp only [State.limitInputs, State.withProt_chan_self, short]; rfl
    have settled := ok d
    unfold State.Settled at settled ⊢
    rw [judged, State.withProt_chan_self]
    exact settled
  · exact (quiet_setChan_ne _ e).settled (ok d)

/-! ### Every command -/

theorem Aside.quiet {s t : State} (h : Aside s t) (c : Channel) : Quiet s t c := by
  rw [h]
  exact ⟨⟨fun _ => rfl, rfl, rfl, rfl, rfl, rfl⟩, rfl⟩

theorem quiet_startOnPhase (s : State) (p : Pattern) (c : Channel) : Quiet s (s.startOnPhase p) c := by
  have reported (t : State) (d : Channel) : Quiet t ((t.reportPhase d).phaseAllowance d) c :=
    (quiet_withSense t d _ c).trans ((touches_phaseAllowance _ d).quiet c)
  exact (quiet_frame s ..).trans (.foldl reported _ _)

theorem allSettled_owners : KeptByOwners State.AllSettled where
  aside h := Settles.of_quiet h.quiet
  remove s l src := settles_evaluateChanged fun c => .foldl (fun t d => sameLimits_withList t d _ c) _ _
  clear s selector src := settles_clear s selector src
  latch s := settles_evaluateAll s _
  floor s src f := settles_setFloor s src f
  sync s mask src := by
    unfold State.flashSync
    split
    · exact id
    · exact Settles.of_quiet fun c => .foldl (fun t p => quiet_startOnPhase t p c) _ _
  logs s l := Settles.of_quiet fun c => .foldl (fun t d => by unfold State.withArb; apply quiet_setChan <;> rfl) _ _
  write s n v _ _ := settles_applyWrite s n v

theorem quiet_advanceTo (s : State) (t : Moment) (c : Channel) : Quiet s (s.advanceTo t) c := quiet_frame s ..

/-- The events of timers, samples, lines and resets, and the DEMAND frames, settle what they unsettle. -/
theorem settles_event {i : Instr} (s : State) (event : ((commandHeader i).isSome || Instr.isAside i) = false) :
    ∃ t, exec i s = .next t ∧ Settles s t := by
  have late (m : Moment) : Settles s (s.advanceTo m) := .of_quiet (quiet_advanceTo s m)
  have kept (m : Moment) (c : Channel) (f : ProtRecord → ProtRecord) (h : ∀ r, (f r).state = r.state) :
      Settles s ((s.advanceTo m).withProt c f) :=
    (late m).trans (.of_quiet ((protFrame_withProt _ c f).quiet (by simp [h])))
  cases i with
  | powerOn pins => exact ⟨_, rfl, settles_afterReset s _ pins⟩
  | supplyDip pins => exact ⟨_, rfl, settles_afterReset s _ pins⟩
  | external pins => exact ⟨_, rfl, settles_afterReset s _ pins⟩
  | demand rx data =>
    refine ⟨_, rfl, ?_⟩
    split <;> [exact .refl s; exact settles_takeDemand s _ _ _]
  | pulseTimerExpiry src c =>
    refine ⟨_, rfl, ?_⟩
    split <;> [exact (late _).trans (settles_evaluate fun d hd => quiet_setChan_ne _ hd); exact .refl s]
  | lapse src c =>
    refine ⟨_, rfl, ?_⟩
    split <;> [exact (late _).trans (settles_lapseAll _ _); exact .refl s]
  | startGraceEnd =>
    refine ⟨_, rfl, ?_⟩
    split <;> [exact (late _).trans (settles_endGrace _); exact .refl s]
  | admission =>
    refine ⟨_, rfl, ?_⟩
    split <;> [exact .refl s; exact .of_quiet (quiet_admitQueued s); exact (late _).trans (.of_quiet (quiet_admitQueued _))]
  | inrushTimerExpiry c =>
    refine ⟨_, rfl, ?_⟩
    split <;> [exact (late _).trans (.of_quiet (touches_enterRunning _ c _).quiet); exact .refl s]
  | allowanceTimerExpiry c =>
    refine ⟨_, rfl, ?_⟩
    split <;> [exact (late _).trans (.of_quiet (touches_allowance _ c _).quiet); exact .refl s]
  | periodBoundary c =>
    have boundary (g start) : Settles s (s.boundary c g start) := (late _).trans (.of_quiet (touches_startPeriod _ c g).quiet)
    refine ⟨_, rfl, ?_⟩
    split <;> [exact boundary _ _; exact boundary _ _; exact .refl s]
  | phaseTimerExpiry p =>
    refine ⟨_, rfl, ?_⟩
    split
    · exact .refl s
    · exact (late _).trans (.of_quiet (quiet_startOnPhase _ p))
    · exact .of_quiet fun c => (quiet_frame s ..).trans (.foldl (fun t d => quiet_withSense t d _ c) _ _)
  | scan m order =>
    have recorded (t : State) : Settles t (t.recordScan m) :=
      .of_quiet fun c => (quiet_frame t ..).trans (.foldl (fun u d => quiet_withSense u d _ c) _ _)
    exact ⟨_, rfl, ((late _).trans (recorded _)).trans (settles_foldl (settles_deliver _) _ _)⟩
  | pwmMidpoint c milliamps =>
    refine ⟨_, rfl, ?_⟩
    split
    · exact ((late _).trans (.of_quiet (quiet_withSense _ c _))).trans (settles_deliverCurrent _ c _ _)
    · exact .refl s
  | offTimeWaitComplete c =>
    refine ⟨_, rfl, ?_⟩
    split <;> [exact kept _ c _ fun _ => rfl; exact .refl s; exact .refl s]
  | fuseTick c => exact settles_fuseTick s c
  | retryDelayExpiry c =>
    refine ⟨_, rfl, ?_⟩
    split
    · next ends short => exact (late ends).trans (settles_retryExpired (s := s.advanceTo ends) short)
    · exact .refl s
  | stableRunExpiry c =>
    refine ⟨_, rfl, ?_⟩
    split <;> [exact kept _ c _ fun _ => rfl; exact .refl s]
  | feederFuseTick => exact ⟨_, exec_feederFuseTick s, settles_feederTick s⟩
  | floorExpiry src =>
    refine ⟨_, rfl, ?_⟩
    split <;> [exact (late _).trans (settles_setFloor _ src none); exact .refl s]
  | lineLevelChange l high =>
    exact ⟨_, rfl, .ite (fun _ => .refl s) fun _ => (Settles.of_quiet (quiet_setLine s l _)).trans (settles_reconsider _ l)⟩
  | debounceExpiry l floorFirst =>
    refine ⟨_, rfl, ?_⟩
    split <;> [exact (late _).trans (settles_settle _ l floorFirst); exact .refl s]
  | _ => cases event

/-- Settles O7: every update of an input of the limiter chain is followed by the evaluation of the channels it concerns. -/
theorem channelsStaySettled : Obligations.ChannelsStaySettled := fun _ _ =>
  allSettled_owners.step (fun _ _ h c => h c) fun _ s event ok =>
    let ⟨t, e, h⟩ := settles_event s event
    ⟨t, e, h ok⟩

end Sys2Proof.Machine
end

section
/-! SUPPORT. Demand lists stay in order (R23, R25, R37, R39, R40): the lists themselves, the LINE entries against the lines
and the SERVICE entries against SVC, each kept by every command on its own account. -/

namespace Sys2Proof.Machine

/-! ### The three parts of the invariant -/

/-- Every list in order, and every last network winner one that an entry could hold (R23, R36). -/
def State.ListsOk (s : State) : Prop :=
  ∀ c : Channel, (s.chan c).demand.list.Ok ∧ ∀ a, (s.chan c).demand.lastNetworkWinner = some a → a.Ok

/-- Every LINE entry the one the lines call for (R40). -/
def State.LinesOk (s : State) : Prop := ∀ c : Channel, (s.chan c).demand.list.line = s.lineEntry c

/-- SERVICE entries only while SVC is ACTIVE (R39). -/
def State.ServiceOk (s : State) : Prop :=
  ∀ c : Channel, (s.chan c).demand.list.net.service ≠ none → s.lines.svc.active = true

theorem State.demandsOk_iff (s : State) : s.DemandsOk ↔ s.ListsOk ∧ s.LinesOk ∧ s.ServiceOk := by
  unfold State.DemandsOk State.ListsOk State.LinesOk State.ServiceOk
  simp only [forall_and]
  tauto

/-- An update that keeps the demand table in order, part by part. -/
structure Demands (s t : State) : Prop where
  lists : s.ListsOk → t.ListsOk
  lines : s.LinesOk → t.LinesOk
  service : s.ServiceOk → t.ServiceOk

theorem Demands.demandsOk {s t : State} (h : Demands s t) (ok : s.DemandsOk) : t.DemandsOk := by
  obtain ⟨lists, lines, service⟩ := (s.demandsOk_iff).1 ok
  exact (t.demandsOk_iff).2 ⟨h.lists lists, h.lines lines, h.service service⟩

theorem Demands.refl (s : State) : Demands s s := ⟨id, id, id⟩

theorem Demands.trans {s t u : State} (h : Demands s t) (k : Demands t u) : Demands s u :=
  ⟨k.lists ∘ h.lists, k.lines ∘ h.lines, k.service ∘ h.service⟩

theorem Demands.ite {s a b : State} {P : Prop} [Decidable P] (ha : P → Demands s a) (hb : ¬P → Demands s b) :
    Demands s (if P then a else b) := by
  split
  · next h => exact ha h
  · next h => exact hb h

theorem Demands.foldl {α : Type} {f : State → α → State} (h : ∀ s a, Demands s (f s a)) :
    ∀ (l : List α) (s : State), Demands s (l.foldl f s)
  | [], s => .refl s
  | a :: l, s => (h s a).trans (Demands.foldl h l (f s a))

/-! ### Updates that leave the table as it is -/

/-- Same demand records, same LINE entries called for, same state of SVC. -/
structure SameDemands (s t : State) : Prop where
  demand : ∀ c, (t.chan c).demand = (s.chan c).demand
  entry : ∀ c, t.lineEntry c = s.lineEntry c
  svc : t.lines.svc.active = s.lines.svc.active

theorem SameDemands.demands {s t : State} (h : SameDemands s t) : Demands s t where
  lists ok c := by rw [h.demand]; exact ok c
  lines ok c := by rw [h.demand, h.entry]; exact ok c
  service ok c := by rw [h.demand, h.svc]; exact ok c

/-- What no LINE entry reads. -/
theorem State.lineEntry_congr {s t : State} (lines : t.lines = s.lines) (cfg : t.cfg.line = s.cfg.line) (c : Channel) :
    t.lineEntry c = s.lineEntry c := by
  unfold State.lineEntry State.boundLines
  rw [lines, cfg]

theorem sameDemands_of_frame {s t : State} (demand : ∀ c, (t.chan c).demand = (s.chan c).demand)
    (lines : t.lines = s.lines) (cfg : t.cfg.line = s.cfg.line) : SameDemands s t :=
  ⟨demand, s.lineEntry_congr lines cfg, by rw [lines]⟩

theorem sameDemands_setChan (s : State) (c : Channel) (x : ChannelState) (h : x.demand = (s.chan c).demand) :
    SameDemands s (s.setChan c x) := by
  refine sameDemands_of_frame (fun d => ?_) rfl rfl
  rw [State.chan_setChan]
  split
  · next e => rw [h, e]
  · rfl

theorem Touches.demands {c : Channel} {s t : State} (h : Touches c s t) : Demands s t := by
  refine SameDemands.demands (sameDemands_of_frame (fun d => (h.records d).1) ?_ ?_) <;> rw [h.frame]

theorem ProtFrame.demands {c : Channel} {s t : State} (h : ProtFrame c s t) : Demands s t := by
  refine SameDemands.demands (sameDemands_of_frame (fun d => ?_) ?_ ?_)
  · by_cases e : d = c
    · subst e; rw [h.own]
    · rw [h.others d e]
  · rw [h.frame]
  · rw [h.frame]

theorem Aside.demands {s t : State} (h : Aside s t) : Demands s t := by
  rw [h]
  exact SameDemands.demands (sameDemands_of_frame (fun _ => rfl) rfl rfl)

theorem demands_frame (s : State) (lapsed graceStart scan queue gens sup latch faults now) :
    Demands s { s with
      lapsed := lapsed, graceStart := graceStart, scan := scan, queue := queue, gens := gens, sup := sup, latch := latch,
      faults := faults, now := now } :=
  SameDemands.demands (sameDemands_of_frame (fun _ => rfl) rfl rfl)

/-! ### Evaluations (R36) -/

/-- A network winner's command is one that an entry of the list holds. -/
theorem DemandList.Ok.winner {l : DemandList} (h : l.Ok) {src : NetSource} {cls : Sys2Proof.Class} {a : Ask}
    (w : l.winner = some ⟨.net src, cls, .ask a⟩) : a.Ok := by
  obtain ⟨x, hx, copy, -⟩ := DemandList.exists_candidate_of_winner w
  obtain ⟨entry, -⟩ := (l.mem_candidates_iff x).1 hx
  obtain ⟨source, -, command⟩ := Winner.mk.injEq .. ▸ copy
  rw [← source] at entry
  have ok := (h.1 src x.entry entry).2.1
  cases k : x.entry.command with
  | ask b =>
    rw [k] at command ok
    obtain rfl := WonCommand.ask.inj command
    exact ok
  | pulse n ph => rw [k] at command; cases command

theorem lastWinnerAfter_ok {l : DemandList} (h : l.Ok) {old : Option Ask} (ok : ∀ a, old = some a → a.Ok) {a : Ask}
    (after : lastWinnerAfter old l.winner = some a) : a.Ok := by
  cases w : l.winner with
  | none => rw [w] at after; exact ok a after
  | some x =>
    obtain ⟨src, cls, cmd⟩ := x
    rw [w] at after
    cases src with
    | net src =>
      cases cmd with
      | ask b =>
        obtain rfl := Option.some.inj after
        exact h.winner w
      | pulse => obtain rfl := Option.some.inj after; trivial
    | line => exact ok a after
    | fallback => exact ok a after

theorem demands_evaluate (s : State) (c : Channel) : Demands s (s.evaluate c) := by
  have e := evaluates s c
  have list (d) : ((s.evaluate c).chan d).demand.list = (s.chan d).demand.list := (e.kept d).1
  refine ⟨fun ok d => ⟨by rw [list]; exact (ok d).1, fun a ha => ?_⟩, fun ok d => ?_, fun ok d => ?_⟩
  · by_cases hd : d = c
    · subst hd
      rw [e.lastWinner] at ha
      exact lastWinnerAfter_ok (ok d).1 (ok d).2 ha
    · have demand : ((s.evaluate c).chan d).demand = (s.chan d).demand := by
        rcases e.others d hd with same | ⟨-, -, -, same, -⟩
        · rw [same]
        · exact same
      rw [demand] at ha
      exact (ok d).2 a ha
  · rw [list, s.lineEntry_congr (t := s.evaluate c) (by rw [e.frame]) (by rw [e.frame])]
    exact ok d
  · rw [list, e.frame]
    exact ok d

theorem demands_evaluateEach (s : State) (l : List Channel) : Demands s (s.evaluateEach l) := .foldl demands_evaluate l s

theorem demands_evaluateChanged (s before : State) : Demands s (s.evaluateChanged before) := demands_evaluateEach s _

/-! ### Lists -/

theorem DemandList.hasNetwork_iff (l : DemandList) : l.hasNetwork = true ↔ ∃ src, l.net.get src ≠ none := by
  simp [DemandList.hasNetwork, mem_allNetSources, Option.isSome_iff_ne_none]

theorem PerSource.get_set {α : Type} (t : PerSource α) (s r : NetSource) (x : α) :
    (t.set s x).get r = if r = s then x else t.get r := by
  split
  · next h => rw [h, PerSource.get_set_self]
  · next h => exact PerSource.get_set_ne t x h

/-- An entry of a source removed (R28). -/
theorem DemandList.Ok.removed {l : DemandList} (h : l.Ok) (src : NetSource) :
    DemandList.Ok { l with net := l.net.set src none } := by
  obtain ⟨net, fallback, apart⟩ := h
  refine ⟨fun r e he => ?_, fallback, fun has => apart ?_⟩
  · rw [PerSource.get_set] at he
    split at he
    · cases he
    · exact net r e he
  · obtain ⟨r, hr⟩ := (DemandList.hasNetwork_iff _).1 has
    rw [PerSource.get_set] at hr
    refine (DemandList.hasNetwork_iff _).2 ⟨r, fun e => hr ?_⟩
    split
    · rfl
    · exact e

/-- An entry of a source written; the FALLBACK entry leaves (R27, R37). -/
theorem DemandList.Ok.written {l : DemandList} (h : l.Ok) {src : NetSource} {e : Entry} (ok : e.NetworkOk src) :
    DemandList.Ok { l with net := l.net.set src (some e), fallback := none } := by
  refine ⟨fun r f hf => ?_, nofun, fun _ => rfl⟩
  rw [PerSource.get_set] at hf
  split at hf
  · next hr =>
    obtain rfl := Option.some.inj hf
    exact hr ▸ ok
  · exact h.1 r f hf

/-- An entry of a source replaced by one in order (R29, R31). -/
theorem DemandList.Ok.replaced {l : DemandList} (h : l.Ok) {src : NetSource} {old e : Entry}
    (present : l.net.get src = some old) (ok : e.NetworkOk src) :
    DemandList.Ok { l with net := l.net.set src (some e) } := by
  obtain ⟨net, fallback, apart⟩ := h
  have none := apart ((DemandList.hasNetwork_iff l).2 ⟨src, by simp [present]⟩)
  refine ⟨fun r f hf => ?_, fallback, fun _ => none⟩
  rw [PerSource.get_set] at hf
  split at hf
  · next hr =>
    obtain rfl := Option.some.inj hf
    exact hr ▸ ok
  · exact net r f hf

theorem DemandList.Ok.renewed {l : DemandList} (h : l.Ok) (src : NetSource) (due : Moment) :
    DemandList.Ok { l with net := l.net.set src ((l.net.get src).map fun e => { e with deadline := some due }) } := by
  cases own : l.net.get src with
  | none => exact h.removed src
  | some e =>
    obtain ⟨cls, command, -⟩ := h.1 src e own
    exact h.replaced own ⟨cls, command, nofun⟩

theorem DemandList.Ok.withLine {l : DemandList} (h : l.Ok) (e : Option Entry) : DemandList.Ok { l with line := e } := h

/-- A FALLBACK entry inserted where no network entry stands (R35, R38). -/
theorem DemandList.Ok.withFallback {l : DemandList} (h : l.Ok) (empty : l.hasNetwork = false) {a : Ask} (ok : a.Ok) :
    DemandList.Ok { l with fallback := some ⟨.comfort, .ask a, none⟩ } := by
  refine ⟨h.1, fun e he => ?_, fun has => absurd (has.symm.trans empty) nofun⟩
  obtain rfl := Option.some.inj he
  exact ⟨rfl, rfl, ok⟩

theorem DemandList.Ok.fallenBack {l : DemandList} (h : l.Ok) (f : Fallback) {last : Option Ask}
    (ok : ∀ a, last = some a → a.Ok) : (l.fallenBack f last).Ok := by
  unfold DemandList.fallenBack
  split
  · exact h
  · next empty =>
    replace empty : l.hasNetwork = false := by simpa using empty
    cases f with
    | off => exact h
    | on => exact h.withFallback empty (a := .on) trivial
    | hold =>
      cases last with
      | none => exact h
      | some a => exact h.withFallback empty (ok a rfl)

theorem DemandList.fallenBack_net (l : DemandList) (f : Fallback) (last : Option Ask) :
    (l.fallenBack f last).net = l.net ∧ (l.fallenBack f last).line = l.line := by
  unfold DemandList.fallenBack
  split <;> exact ⟨rfl, rfl⟩

/-! ### The codes of a DEMAND frame (R25 to R30) -/

/-- The list a code leaves is in order: its class lies within the sender's ceiling, its duty or length in range. -/
theorem DemandList.Ok.afterCode {l : DemandList} (h : l.Ok) (src : NetSource) {d : DemandItem} (byte : d.argument < 256)
    (now due : Moment) : (l.afterCode src d now due).Ok := by
  have within : classOk src (classFor src d.classField) := by
    rw [classFor_eq]
    by_cases h3 : d.classField = 3
    · cases src <;> simp [h3, classOk, Class.code]
    · by_cases h2 : d.classField = 2
      · cases src <;> simp [h2, classOk, Class.code]
      · cases src <;> simp [h2, h3, classOk, Class.code]
  rw [classFor_eq] at within
  have duty : (if d.argument ≤ 250 then 4 * d.argument else 1000) ≤ 1000 ∧ (if d.argument ≤ 250 then 4 * d.argument else 1000) % 4 = 0 := by
    split <;> omega
  have length : 10 ≤ (if d.argument = 0 then 10 else 10 * d.argument) ∧ (if d.argument = 0 then 10 else 10 * d.argument) ≤ 2550 ∧
      (if d.argument = 0 then 10 else 10 * d.argument) % 10 = 0 := by
    split <;> omega
  have written {k : EntryCommand} (ok : k.Ok) := h.written (src := src) (e := ⟨_, k, some due⟩) ⟨within, ok, nofun⟩
  unfold DemandList.afterCode
  cases d.code with
  | skip => exact h
  | release => exact h.removed src
  | off => exact written (k := .ask .off) trivial
  | on => exact written (k := .ask .on) trivial
  | dim => exact written (k := .ask (.dim _)) duty
  | flash => exact written (k := .ask (.flash _)) trivial
  | renew => exact h.renewed src due
  | pulse =>
    dsimp only
    split
    · exact h.renewed src due
    · exact written (k := .pulse _ _) length

theorem DemandList.afterCode_line (l : DemandList) (src : NetSource) (d : DemandItem) (now due : Moment) :
    (l.afterCode src d now due).line = l.line := by
  unfold DemandList.afterCode
  cases d.code with
  | pulse => dsimp only; split <;> rfl
  | _ => rfl

/-- A code leaves the entries of the other sources. -/
theorem DemandList.afterCode_get_ne (l : DemandList) {src r : NetSource} (h : r ≠ src) (d : DemandItem) (now due : Moment) :
    (l.afterCode src d now due).net.get r = l.net.get r := by
  unfold DemandList.afterCode
  cases d.code with
  | skip => rfl
  | pulse => dsimp only; split <;> exact PerSource.get_set_ne _ _ h
  | _ => exact PerSource.get_set_ne _ _ h

/-! ### Writes of one list -/

/-- A write of one channel that leaves its list in order, its last network winner, its LINE entry, and no SERVICE entry
unless one stood or SVC is ACTIVE. -/
theorem demands_setChan {s : State} {c : Channel} {x : ChannelState}
    (list : (s.chan c).demand.list.Ok → (∀ a, (s.chan c).demand.lastNetworkWinner = some a → a.Ok) → x.demand.list.Ok)
    (last : x.demand.lastNetworkWinner = (s.chan c).demand.lastNetworkWinner)
    (line : x.demand.list.line = (s.chan c).demand.list.line)
    (service : x.demand.list.net.service ≠ none → (s.chan c).demand.list.net.service = none → s.lines.svc.active = true) :
    Demands s (s.setChan c x) := by
  refine ⟨fun ok d => ?_, fun ok d => ?_, fun ok d => ?_⟩ <;> by_cases e : d = c
  · subst e
    rw [State.chan_setChan_self, last]
    exact ⟨list (ok d).1 (ok d).2, (ok d).2⟩
  · rw [State.chan_setChan_ne _ _ e]; exact ok d
  · subst e
    rw [State.chan_setChan_self, line]
    exact ok d
  · rw [State.chan_setChan_ne _ _ e]; exact ok d
  · subst e
    rw [State.chan_setChan_self]
    intro h
    by_cases stood : (s.chan d).demand.list.net.service = none
    · exact service h stood
    · exact ok d stood
  · rw [State.chan_setChan_ne _ _ e]; exact ok d

/-- A list replaced by one that differs in the entries of no LINE and, if of SERVICE, under SVC or by a removal. -/
theorem demands_withList {s : State} {c : Channel} {l : DemandList} (list : (s.chan c).demand.list.Ok → l.Ok)
    (line : l.line = (s.chan c).demand.list.line)
    (service : l.net.service ≠ none → (s.chan c).demand.list.net.service = none → s.lines.svc.active = true) :
    Demands s (s.setChan c ((s.chan c).withList l)) := demands_setChan (fun ok _ => list ok) rfl line service

theorem demands_logCause (s : State) (c : Channel) (k : LimitCause) : Demands s (s.logCause c k) :=
  (sameDemands_setChan s c ((s.chan c).logged k) rfl).demands

theorem demands_removeEntry (s : State) (src : NetSource) (c : Channel) : Demands s (s.removeEntry src c) := by
  rw [State.removeEntry_eq]
  refine demands_withList (fun ok => ok.removed src) rfl fun h stood => absurd ?_ h
  cases src with
  | service => rfl
  | _ => exact stood

theorem demands_takeCode {s : State} {src : NetSource} (svc : src = .service → s.lines.svc.active = true) (c : Channel)
    {d : DemandItem} (byte : d.argument < 256) : Demands s (s.takeCode src c d) := by
  rw [State.takeCode_eq]
  unfold ChannelState.took
  split
  · exact demands_logCause s c _
  · refine demands_setChan (fun ok _ => ok.afterCode src byte _ _) rfl (DemandList.afterCode_line ..) fun h stood => ?_
    by_cases e : src = .service
    · exact svc e
    · have kept := (s.chan c).demand.list.afterCode_get_ne (r := .service) (Ne.symm e) d s.now (s.lapseDeadline src)
      exact absurd (Eq.trans kept stood) h

theorem demandItem_argument_lt (data : Vector Byte 8) (i : Fin 4) : (demandItem data i).argument < 256 := Fin.is_lt _

theorem demands_takeCodes {src : NetSource} (g : Fin 4) (data : Vector Byte 8) {s : State}
    (svc : src = .service → s.lines.svc.active = true) : Demands s (s.takeCodes src g data) := by
  suffices h : ∀ (l : List (Fin 4)) (t : State), (src = .service → t.lines.svc.active = true) →
      Demands t (l.foldl (fun t i => t.takeCode src (groupChannel g i) (demandItem data i)) t) from h _ s svc
  intro l
  induction l with
  | nil => exact fun t _ => .refl t
  | cons i l ih =>
    refine fun t svc => (demands_takeCode svc _ (demandItem_argument_lt data i)).trans (ih _ ?_)
    rw [State.takeCode_eq]
    exact svc

theorem demands_takeDemand (s : State) (src : NetSource) (g : Fin 4) (data : Vector Byte 8) :
    Demands s (s.takeDemand src g data) := by
  have cleared : Demands s (s.clearLapsed src) := .ite (fun _ => demands_frame s ..) fun _ => .refl s
  refine cleared.trans (.ite (fun _ => .foldl (fun t i => .ite (fun _ => .refl t) fun _ => demands_logCause t _ _) _ _)
    fun may => (demands_takeCodes g data fun e => ?_).trans (demands_evaluateChanged _ _))
  exact Bool.eq_true_of_not_eq_false fun h => may ⟨e, h⟩

/-! ### Pulses, lapses and the start grace (R31, R33, R38) -/

theorem demands_spent {s : State} {src : NetSource} {c : Channel} {cls : Sys2Proof.Class} {n : Nat} {ends : Moment}
    {due : Option Moment} (own : (s.chan c).demand.list.net.get src = some ⟨cls, .pulse n (.running ends), due⟩) :
    Demands s (s.setChan c ((s.chan c).withList { (s.chan c).demand.list with
      net := (s.chan c).demand.list.net.set src (some ⟨cls, .pulse n .spent, due⟩) })) := by
  refine demands_withList (fun ok => ?_) rfl fun h stood => absurd ?_ h
  · obtain ⟨cls, length, due⟩ := ok.1 src _ own
    exact ok.replaced own ⟨cls, length, due⟩
  cases src with
  | service => rw [PerSource.get] at own; rw [own] at stood; cases stood
  | _ => exact stood

theorem demands_lapseEntry (s : State) (src : NetSource) (c : Channel) : Demands s (s.lapseEntry src c) := by
  rw [State.lapseEntry_eq]
  refine (demands_frame s (lapsed := s.lapsed.set src true) ..).trans
    (demands_setChan (fun ok last => (ok.removed src).fallenBack _ last) rfl ?_ ?_)
  · exact (DemandList.fallenBack_net ..).2
  · intro h stood
    refine absurd ?_ h
    change (DemandList.fallenBack ..).net.service = none
    rw [(DemandList.fallenBack_net ..).1]
    cases src with
    | service => rfl
    | _ => exact stood

theorem demands_lapseAll (s : State) (due : Moment) : Demands s (s.lapseAll due) :=
  ((Demands.foldl (fun t c => .foldl (fun u src => demands_lapseEntry u src c) _ t) _ s).trans (demands_frame _ ..)).trans
    (demands_evaluateEach _ _)

theorem demands_endGrace (s : State) : Demands s s.endGrace := by
  have entry (t : State) (c : Channel) : Demands t (if t.unclaimed c then
      t.withDemand c fun d => { d with list := { d.list with fallback := some ⟨.comfort, .ask .on, none⟩ } } else t) := by
    refine .ite (fun unclaimed => demands_withList (fun ok => ok.withFallback ?_ (a := .on) trivial) rfl fun h stood =>
      absurd stood h) fun _ => .refl t
    unfold State.unclaimed at unclaimed
    simp only [Bool.and_eq_true, Bool.not_eq_true'] at unclaimed
    exact unclaimed.1.1.2
  have ended : Demands s { s with graceStart := none } := demands_frame s ..
  have entries : Demands s ({ s with graceStart := none } : State).graceEntries := ended.trans (.foldl entry allChannels _)
  exact entries.trans (demands_evaluateChanged _ { s with graceStart := none })

/-! ### LINE entries (R40, R41) -/

/-- The LINE entry of a channel reads the lines that bind it only. -/
theorem State.lineEntry_of_bound {s t : State} {c : Channel}
    (bound : ∀ i : Fin 4, (t.lines.conf[i].active && t.cfg.line[i].binds c) = (s.lines.conf[i].active && s.cfg.line[i].binds c))
    (pattern : ∀ i : Fin 4, t.cfg.line[i].binds c = true → t.cfg.line[i].flashPattern = s.cfg.line[i].flashPattern) :
    t.lineEntry c = s.lineEntry c := by
  have lines : t.boundLines c = s.boundLines c := by unfold State.boundLines; simp only [bound]
  unfold State.lineEntry
  rw [← lines]
  congr 2
  refine List.map_congr_left fun i hi => pattern i ?_
  obtain ⟨-, h⟩ := List.mem_filter.1 hi
  exact (Bool.and_eq_true_iff.1 h).2

/-- The recomputing of LINE entries, channel by channel. -/
theorem byChannel_recompute (s : State) :
    ByChannel (fun t c => t.withDemand c fun d => { d with list := { d.list with line := t.lineEntry c } }) id
      (fun t => t = { s with chans := t.chans })
      fun c x => x.withList { x.demand.list with line := s.lineEntry c } :=
  byChannel_setChan s fun t c ht => by
    have entry : t.lineEntry c = s.lineEntry c := State.lineEntry_congr (by rw [ht]) (by rw [ht]) c
    unfold State.withDemand
    rw [entry]
    rfl

/-- The state with the LINE entries of some channels recomputed (R41). -/
def State.withLineEntries (s : State) (concerned : Channel → Bool) : State :=
  (allChannels.filter concerned).foldl
    (fun t c => t.withDemand c fun d => { d with list := { d.list with line := t.lineEntry c } }) s

theorem State.recomputeLines_eq (s : State) (concerned : Channel → Bool) :
    s.recomputeLines concerned = (s.withLineEntries concerned).evaluateChanged s := rfl

theorem State.withLineEntries_frame (s : State) (concerned : Channel → Bool) :
    s.withLineEntries concerned = { s with chans := (s.withLineEntries concerned).chans } :=
  (byChannel_recompute s).foldl_keeps _ s rfl

theorem State.withLineEntries_chan (s : State) (concerned : Channel → Bool) (c : Channel) :
    (s.withLineEntries concerned).chan c =
      if concerned c then (s.chan c).withList { (s.chan c).demand.list with line := s.lineEntry c } else s.chan c := by
  unfold State.withLineEntries
  rw [(byChannel_recompute s).foldl_chan (nodup_allChannels.filter concerned) rfl]
  simp only [List.mem_filter, mem_allChannels, true_and]

/-- LINE entries recomputed: in order again if they were wherever none is recomputed. -/
theorem recomputeLines_demandsOk {s : State} {concerned : Channel → Bool} (lists : s.ListsOk) (service : s.ServiceOk)
    (others : ∀ c, concerned c = false → (s.chan c).demand.list.line = s.lineEntry c) :
    (s.recomputeLines concerned).DemandsOk := by
  rw [State.recomputeLines_eq]
  have frame := s.withLineEntries_frame concerned
  refine (demands_evaluateChanged _ _).demandsOk ((State.demandsOk_iff _).2 ⟨fun c => ?_, fun c => ?_, fun c => ?_⟩)
  · rw [State.withLineEntries_chan]
    split
    · exact ⟨(lists c).1.withLine _, (lists c).2⟩
    · exact lists c
  · rw [State.withLineEntries_chan, s.lineEntry_congr (t := s.withLineEntries concerned) (by rw [frame]) (by rw [frame])]
    split
    · rfl
    · next h => exact others c (by simpa using h)
  · have lines : (s.withLineEntries concerned).lines = s.lines := by rw [frame]
    rw [lines, State.withLineEntries_chan]
    split
    · exact service c
    · exact service c

/-! ### The loss of SVC (R39, R166) -/

theorem demands_evaluateAll (s : State) : Demands s s.evaluateAll := demands_evaluateEach s _

theorem demands_evaluateLevel (s before : State) : Demands s (s.evaluateLevel before) :=
  .ite (fun _ => .refl s) fun _ => demands_evaluateAll s

theorem demands_setFloor (s : State) (src : NetSource) (f : Option Floor) : Demands s (s.setFloor src f) :=
  (demands_frame s ..).trans (demands_evaluateLevel _ _)

theorem demands_endServiceFloor (s : State) : Demands s s.endServiceFloor := by
  unfold State.endServiceFloor
  split
  · exact .refl s
  · exact demands_setFloor s _ _

theorem demands_removeService (s : State) : Demands s s.removeService :=
  (Demands.foldl (fun t c => demands_removeEntry t .service c) _ _).trans (demands_evaluateChanged _ _)

/-- The removal of one source's entries, channel by channel. -/
theorem byChannel_removeEntry (s : State) (src : NetSource) :
    ByChannel (fun t c => t.removeEntry src c) id (fun t => t = { s with chans := t.chans })
      fun _ x => x.withList { x.demand.list with net := x.demand.list.net.set src none } :=
  byChannel_setChan s fun _ _ _ => rfl

/-- No SERVICE entry is left by their removal. -/
theorem State.removeService_serviceOk (s : State) : s.removeService.ServiceOk := by
  refine (demands_evaluateChanged _ _).service fun c h => absurd ?_ h
  rw [(byChannel_removeEntry s .service).foldl_chan nodup_allChannels rfl, if_pos (mem_allChannels c)]
  rfl

/-- The loss of SVC leaves the demand table in order, in either order of its effects. -/
theorem loseService_demandsOk {s : State} (lists : s.ListsOk) (lines : s.LinesOk) (floorFirst : Bool) :
    (s.loseService floorFirst).DemandsOk := by
  have removed {t : State} (lists : t.ListsOk) (lines : t.LinesOk) : t.removeService.DemandsOk :=
    (State.demandsOk_iff _).2
      ⟨(demands_removeService t).lists lists, (demands_removeService t).lines lines, t.removeService_serviceOk⟩
  unfold State.loseService
  split
  · have ended := demands_endServiceFloor s
    exact removed (ended.lists lists) (ended.lines lines)
  · exact (demands_endServiceFloor _).demandsOk (removed lists lines)

/-! ### The lines (R159 to R167) -/

@[simp] theorem State.line_setLine_self (s : State) (l : Line) (r : LineRecord) : (s.setLine l r).line l = r := by
  cases l with
  | conf i => simp [State.setLine, State.line]
  | emg => rfl
  | svc => rfl

/-- A line record is read by the demand table for its debounced state only. -/
theorem sameDemands_setLine (s : State) (l : Line) (r : LineRecord) (h : r.active = (s.line l).active) :
    SameDemands s (s.setLine l r) := by
  refine ⟨fun _ => by cases l <;> rfl, fun c => State.lineEntry_of_bound (fun i => ?_) fun i _ => ?_, ?_⟩
  · cases l with
    | conf j =>
      have active : ((s.setLine (.conf j) r).lines.conf[i]).active = s.lines.conf[i].active := by
        unfold State.setLine
        dsimp only
        rw [vector_set_get]
        split
        · next e => rw [h, e]; rfl
        · rfl
      rw [active]
      rfl
    | emg => rfl
    | svc => rfl
  · cases l <;> rfl
  · cases l with
    | svc => exact h
    | _ => rfl

/-- The LINE entry of a channel that a configurable line does not bind is independent of that line's record. -/
theorem State.lineEntry_setLine_of_unbound {s : State} {i : Fin 4} {c : Channel} (unbound : s.cfg.line[i].binds c = false)
    (r : LineRecord) : (s.setLine (.conf i) r).lineEntry c = s.lineEntry c := by
  refine State.lineEntry_of_bound (fun j => ?_) fun j _ => rfl
  by_cases e : j = i
  · subst e
    simp only [State.setLine, unbound, Bool.and_false]
  · simp only [State.setLine, vector_set_get, if_neg e]

/-- Whatever a line's record becomes, handing the change on leaves the demand table in order. -/
theorem handOn_demandsOk {s : State} (ok : s.DemandsOk) (l : Line) (r : LineRecord) (floorFirst : Bool) :
    ((s.setLine l r).handOn l floorFirst).DemandsOk := by
  obtain ⟨lists, lines, service⟩ := s.demandsOk_iff.1 ok
  cases l with
  | conf i =>
    exact recomputeLines_demandsOk (s := s.setLine (.conf i) r) lists service fun c unbound =>
      (lines c).trans (State.lineEntry_setLine_of_unbound (s := s) (i := i) unbound r).symm
  | emg =>
    have turned : SameDemands s (s.setLine .emg r) := ⟨fun _ => rfl, fun _ => rfl, rfl⟩
    have latched (t : State) : Demands t t.setLatch :=
      .trans (t := ({ t with latch := true } : State).occur .emergency) (demands_frame t ..) (demands_evaluateAll _)
    exact (turned.demands.trans (.ite (fun _ => latched _) fun _ => .refl _)).demandsOk ok
  | svc =>
    have lists : (s.setLine .svc r).ListsOk := lists
    have lines : (s.setLine .svc r).LinesOk := lines
    change (if (s.setLine .svc r).lines.svc.active then _ else _ : State).DemandsOk
    split
    · next active => exact (State.demandsOk_iff _).2 ⟨lists, lines, fun _ _ => active⟩
    · exact loseService_demandsOk lists lines floorFirst

theorem settle_demandsOk {s : State} (ok : s.DemandsOk) (l : Line) (floorFirst : Bool) :
    (s.settle l floorFirst).DemandsOk := handOn_demandsOk ok l _ floorFirst

theorem reconsider_demandsOk {s : State} (ok : s.DemandsOk) (l : Line) : (s.reconsider l).DemandsOk := by
  have timed (d : Option Moment) := (sameDemands_setLine s l { s.line l with debounce := d } rfl).demands.demandsOk ok
  unfold State.reconsider
  split
  · exact timed _
  · split
    · exact settle_demandsOk ok l false
    · exact timed _

/-! ### CONFIG_WRITE (R4 to R10) -/

theorem demands_cfg (s : State) (g : WorkingConfig) (h : g.line = s.cfg.line) : Demands s { s with cfg := g } :=
  (sameDemands_of_frame (s := s) (t := { s with cfg := g }) (fun _ => rfl) rfl h).demands

theorem demands_testGrace (s : State) : Demands s s.testGrace := by
  unfold State.testGrace
  split
  · exact .refl s
  · exact .ite (fun _ => demands_endGrace s) fun _ => .refl s

theorem demands_zoneEffect (s : State) (f : ZoneField) : Demands s (s.zoneEffect f) := by
  cases f with
  | lv1 => exact demands_frame s ..
  | lv2 => exact demands_frame s ..
  | lv3 => exact demands_frame s ..
  | admissionInterval => exact (touches_admit s 0).demands
  | startGrace => exact demands_testGrace s
  | _ => exact .refl s

theorem testDebounce_demandsOk {s : State} (ok : s.DemandsOk) (i : Fin 4) : (s.testDebounce i).DemandsOk := by
  unfold State.testDebounce
  split
  · exact ok
  · split <;> [exact settle_demandsOk ok _ _; exact ok]

/-- A write of a line field and its effect (R10): the channels the line binds before or after it take the LINE entry the
lines then call for. -/
theorem lineWrite_demandsOk {s : State} (ok : s.DemandsOk) (i : Fin 4) (f : LineField) (v : Nat) :
    ((({ s with cfg := s.cfg.write (.line i f) v } : State)).lineEffect i f s.cfg.line[i]).DemandsOk := by
  obtain ⟨lists, lines, service⟩ := s.demandsOk_iff.1 ok
  have settings (j : Fin 4) : (s.cfg.write (.line i f) v).line[j] = if j = i then s.cfg.line[j].set f v else s.cfg.line[j] := by
    change (s.cfg.line.set i _)[j] = _
    rw [vector_set_get]
    split
    · next e => rw [e]
    · rfl
  have written (bound : ∀ j : Fin 4, (s.cfg.line[j].set f v).binds = s.cfg.line[j].binds)
      (pattern : ∀ j : Fin 4, (s.cfg.line[j].set f v).flashPattern = s.cfg.line[j].flashPattern) :
      State.DemandsOk { s with cfg := s.cfg.write (.line i f) v } := by
    refine (SameDemands.demands (s := s) (t := { s with cfg := s.cfg.write (.line i f) v }) ⟨fun _ => rfl, fun c => State.lineEntry_of_bound (fun j => ?_) fun j _ => ?_, rfl⟩).demandsOk ok
    · simp only [settings]; split <;> simp only [bound]
    · simp only [settings]; split <;> simp only [pattern]
  have rebound : State.DemandsOk (State.recomputeLines { s with cfg := s.cfg.write (.line i f) v }
      fun c => s.cfg.line[i].binds c || (s.cfg.write (.line i f) v).line[i].binds c) := by
    refine recomputeLines_demandsOk (s := { s with cfg := s.cfg.write (.line i f) v }) lists service fun c unbound => ?_
    obtain ⟨before, after⟩ := Bool.or_eq_false_iff.1 unbound
    refine (lines c).trans (State.lineEntry_of_bound (fun j => ?_) fun j hj => ?_)
    · by_cases e : j = i
      · subst e
        change _ = (s.lines.conf[j].active && (s.cfg.write (.line j f) v).line[j].binds c)
        rw [before, after]
      · simp only [settings, if_neg e]
    · have e : j ≠ i := fun e => by rw [e, before] at hj; cases hj
      simp only [settings, if_neg e]
  cases f with
  | polarity => exact reconsider_demandsOk (written (fun _ => rfl) fun _ => rfl) _
  | debounce => exact testDebounce_demandsOk (written (fun _ => rfl) fun _ => rfl) i
  | mask => exact rebound
  | command => exact rebound

theorem demands_writeEffect (s : State) (n : ConfigField) (old : WorkingConfig) (h : ∀ i f, n ≠ .line i f) :
    Demands s (s.writeEffect n old) := by
  cases n with
  | profile c f => exact (protFrame_profileEffect s c f).demands.trans (demands_evaluate _ c)
  | zone f => exact demands_zoneEffect s f
  | lapse src => exact .refl s
  | pattern p f => exact .refl s
  | line i f => exact absurd rfl (h i f)

theorem applyWrite_demandsOk {s : State} (ok : s.DemandsOk) (n : ConfigField) (v : Nat) : (s.applyWrite n v).DemandsOk := by
  have written (h : ∀ i f, n ≠ .line i f) (same : (s.cfg.write n v).line = s.cfg.line) :
      (({ s with cfg := s.cfg.write n v } : State).writeEffect n s.cfg).DemandsOk :=
    ((demands_cfg s _ same).trans (demands_writeEffect _ n s.cfg h)).demandsOk ok
  unfold State.applyWrite
  split
  · cases n with
    | profile c f => exact (demands_evaluate s c).demandsOk ok
    | _ => exact ok
  · cases n with
    | line i f => exact lineWrite_demandsOk ok i f v
    | profile c f => exact written nofun rfl
    | zone f => exact written nofun rfl
    | lapse src => exact written nofun rfl
    | pattern p f => exact written nofun rfl

/-! ### The resets (R45, R167) -/

theorem DemandList.empty_get (src : NetSource) : DemandList.empty.net.get src = none := by
  cases src <;> rfl

theorem DemandList.empty_ok : DemandList.empty.Ok :=
  ⟨fun src e h => by { rw [DemandList.empty_get] at h; cases h }, nofun, fun _ => rfl⟩

/-- Without an active line there is no LINE entry. -/
theorem State.lineEntry_of_inactive {s : State} (h : ∀ i : Fin 4, s.lines.conf[i].active = false) (c : Channel) :
    s.lineEntry c = none := by
  have unbound : s.boundLines c = [] := List.filter_eq_nil_iff.2 fun i _ => by
    simp only [h i, Bool.false_and, Bool.false_eq_true, not_false_eq_true]
  unfold State.lineEntry
  rw [unbound]
  rfl

/-- Empty lists and inactive lines are in order. -/
theorem demandsOk_of_empty {s : State} (demand : ∀ c, (s.chan c).demand = ⟨DemandList.empty, none, false⟩)
    (lines : ∀ i : Fin 4, s.lines.conf[i].active = false) : s.DemandsOk := fun c => by
  rw [demand, State.lineEntry_of_inactive lines]
  exact ⟨DemandList.empty_ok, fun h => absurd rfl h, rfl, nofun⟩

theorem afterReset_demandsOk (s : State) (cause : ResetCause) (pins : ResetPins) : (s.afterReset cause pins).DemandsOk := by
  have load (t : State) : Demands t t.reportLoad := .ite (fun _ => .refl t) fun _ => demands_frame t ..
  have grace (t : State) : Demands t t.startGraceAtReset := .ite (fun _ => demands_endGrace t) fun _ => .refl t
  refine ((load _).trans (grace _)).demandsOk (demandsOk_of_empty (fun c => ?_) fun i => ?_)
  · exact congrArg ChannelState.demand (Vector.getElem_ofFn ..)
  · exact congrArg LineRecord.active (Vector.getElem_ofFn ..)

/-! ### Every command -/

/-- What no demand list reads. -/
theorem demands_advanceTo (s : State) (t : Moment) : Demands s (s.advanceTo t) := demands_frame s ..

theorem demands_withSense (s : State) (c : Channel) (f : SenseRecord → SenseRecord) : Demands s (s.withSense c f) := by
  unfold State.withSense
  refine (sameDemands_setChan s c _ ?_).demands
  rfl

theorem demands_startOnPhase (s : State) (p : Pattern) : Demands s (s.startOnPhase p) := by
  have reported (t : State) (d : Channel) : Demands t ((t.reportPhase d).phaseAllowance d) :=
    (demands_withSense t d _).trans (touches_phaseAllowance _ d).demands
  exact (demands_frame s ..).trans (.foldl reported _ _)

theorem demands_clear (s : State) (selector : Nat) (src : NetSource) : Demands s (State.clear selector src s).state := by
  have moved (t : State) (c : Channel) : Demands t (t.clearProtection c) := (protOnly_clearProtection t c).protFrame.demands
  unfold State.clear
  split
  · unfold State.clearOne
    split
    · exact (moved s _).trans (.ite (fun _ => .refl _) fun _ => demands_evaluate _ _)
    · exact .refl s
  · split
    · exact (Demands.foldl moved _ s).trans (demands_evaluateEach _ _)
    · exact .refl s

theorem demands_removeEntries (s : State) (l : List Channel) (src : NetSource) :
    Demands s ((l.foldl (fun t c => t.removeEntry src c) s).evaluateChanged s) :=
  (Demands.foldl (fun t c => demands_removeEntry t src c) l s).trans (demands_evaluateChanged _ s)

theorem demands_clearLatch (s : State) : Demands s s.clearLatch :=
  .trans (t := ({ s with latch := false } : State).finish .emergency) (demands_frame s ..) (demands_evaluateAll _)

theorem demands_flashSync (s : State) (mask : Nat) (src : NetSource) : Demands s (State.flashSync mask src s).state := by
  unfold State.flashSync
  split
  · exact .refl s
  · exact .foldl demands_startOnPhase _ s

theorem demands_clearLogs (s : State) (l : List Channel) : Demands s (s.clearLogs l) :=
  .foldl (fun t d => by unfold State.withArb; refine (sameDemands_setChan t d _ ?_).demands; rfl) _ s

theorem demandsOk_owners : KeptByOwners State.DemandsOk where
  aside := fun h => h.demands.demandsOk
  remove s l src := (demands_removeEntries s l src).demandsOk
  clear s selector src := (demands_clear s selector src).demandsOk
  latch s := (demands_clearLatch s).demandsOk
  floor s src f := (demands_setFloor s src f).demandsOk
  sync s mask src := (demands_flashSync s mask src).demandsOk
  logs s l := (demands_clearLogs s l).demandsOk
  write _ n v _ _ ok := applyWrite_demandsOk ok n v

theorem demands_evaluateMoved {c : Channel} {s t : State} (h : ProtFrame c s t) : Demands s (t.evaluateMoved s c) :=
  h.demands.trans (.ite (fun _ => .refl t) fun _ => demands_evaluate t c)

theorem demands_fuseTick (s : State) (c : Channel) : ∃ t, exec (.fuseTick c) s = .next t ∧ Demands s t := by
  refine ⟨_, rfl, .trans (t := (s.advanceTo _).withProt c _) ?_ (demands_evaluateMoved
    ((protOnly_compareLevels _ c).protFrame.trans (protFrame_withProt _ c _)))⟩
  exact (demands_advanceTo s _).trans (protFrame_withProt _ c _).demands

theorem demands_deliverCurrent (s : State) (c : Channel) (current : Nat) (saturated : Bool) :
    Demands s (s.deliverCurrent c current saturated) :=
  .ite (fun _ => .ite (fun _ => (protOnly_trip s c _).protFrame.demands.trans (demands_evaluate _ c))
    fun _ => (protOnly_checkOnState s c _).protFrame.demands) fun _ => .refl s

/-- The supervisor after a zone sample (R143 to R148). -/
def State.zoneCompared (s : State) (volts : Nat) : Supervisor :=
  let v := ((s.sup.sample s.cfg.zone s.now volts).rise s.now).fall s.now
  Supervisor.testHold { v with level := v.effective } s.now

/-- The part after a zone sample, before the evaluation that a changed level or hold causes (R143 to R148, R154). -/
def State.zoneSampled (s : State) (volts : Nat) : State :=
  { s with
    sup := s.zoneCompared volts
    faults := s.faults.report s.now
      (flagReport (decide (1 ≤ s.sup.voltageLevel)) (decide (1 ≤ (s.zoneCompared volts).voltageLevel)) .supplyLow
        ++ flagReport s.sup.hold (s.zoneCompared volts).hold .supplyHigh) }

theorem State.deliverZone_eq (s : State) (volts : Nat) :
    s.deliverZone volts = ((s.zoneSampled volts).evaluateLevel s).evaluateHold s := rfl

theorem demands_deliverZone (s : State) (volts : Nat) : Demands s (s.deliverZone volts) := by
  have sampled : Demands s (s.zoneSampled volts) := demands_frame s ..
  rw [State.deliverZone_eq]
  exact (sampled.trans (demands_evaluateLevel _ s)).trans (.ite (fun _ => .refl _) fun _ => demands_evaluateAll _)

theorem demands_deliver (r s : State) (d : Delivery) : Demands s (r.deliver s d) := by
  unfold State.deliver
  split
  · exact demands_deliverZone s _
  · dsimp only
    split
    · exact demands_deliverCurrent s _ _ _
    · exact (protOnly_deliverVoltage s ..).protFrame.demands
    · exact .refl s

/-- The events of timers, samples, lines and resets, and the DEMAND frames, keep the demand table in order. -/
theorem demandsOk_event {i : Instr} (s : State) (event : ((commandHeader i).isSome || Instr.isAside i) = false)
    (ok : s.DemandsOk) : ∃ t, exec i s = .next t ∧ t.DemandsOk := by
  have late (m : Moment) : (s.advanceTo m).DemandsOk := (demands_advanceTo s m).demandsOk ok
  have lateOf {m : Moment} {t : State} (h : Demands (s.advanceTo m) t) : t.DemandsOk := h.demandsOk (late m)
  cases i with
  | powerOn pins => exact ⟨_, rfl, afterReset_demandsOk s _ pins⟩
  | supplyDip pins => exact ⟨_, rfl, afterReset_demandsOk s _ pins⟩
  | external pins => exact ⟨_, rfl, afterReset_demandsOk s _ pins⟩
  | demand rx data =>
    refine ⟨_, rfl, ?_⟩
    split <;> [exact ok; exact (demands_takeDemand s _ _ _).demandsOk ok]
  | pulseTimerExpiry src c =>
    refine ⟨_, rfl, ?_⟩
    split
    · next cls n ends due own =>
      exact lateOf ((demands_spent (s := s.advanceTo ends) own).trans (demands_evaluate _ c))
    · exact ok
  | lapse src c =>
    refine ⟨_, rfl, ?_⟩
    split <;> [exact lateOf (demands_lapseAll _ _); exact ok]
  | startGraceEnd =>
    refine ⟨_, rfl, ?_⟩
    split <;> [exact lateOf (demands_endGrace _); exact ok]
  | admission =>
    refine ⟨_, rfl, ?_⟩
    split <;> [exact ok; exact (touches_admit s 0).demands.demandsOk ok; exact lateOf (touches_admit _ 0).demands]
  | inrushTimerExpiry c =>
    refine ⟨_, rfl, ?_⟩
    split <;> [exact lateOf (touches_enterRunning _ c _).demands; exact ok]
  | allowanceTimerExpiry c =>
    refine ⟨_, rfl, ?_⟩
    split <;> [exact lateOf (touches_allowance _ c _).demands; exact ok]
  | periodBoundary c =>
    have boundary (g start) : (s.boundary c g start).DemandsOk := lateOf (touches_startPeriod _ c g).demands
    refine ⟨_, rfl, ?_⟩
    split <;> [exact boundary _ _; exact boundary _ _; exact ok]
  | phaseTimerExpiry p =>
    refine ⟨_, rfl, ?_⟩
    split
    · exact ok
    · exact lateOf (demands_startOnPhase _ p)
    · exact ((demands_frame s ..).trans (Demands.foldl (fun t d => demands_withSense t d _) _ _)).demandsOk ok
  | scan m order =>
    have recorded (t : State) : Demands t (t.recordScan m) :=
      (demands_frame t ..).trans (.foldl (fun u d => demands_withSense u d _) _ _)
    exact ⟨_, rfl, lateOf ((recorded _).trans (.foldl (demands_deliver _) _ _))⟩
  | pwmMidpoint c milliamps =>
    refine ⟨_, rfl, ?_⟩
    split
    · exact lateOf ((demands_withSense _ c _).trans (demands_deliverCurrent _ c _ _))
    · exact ok
  | offTimeWaitComplete c =>
    refine ⟨_, rfl, ?_⟩
    split <;> [exact lateOf (protFrame_withProt _ c _).demands; exact ok; exact ok]
  | fuseTick c =>
    obtain ⟨t, e, h⟩ := demands_fuseTick s c
    exact ⟨t, e, h.demandsOk ok⟩
  | retryDelayExpiry c =>
    refine ⟨_, rfl, ?_⟩
    split <;> [exact lateOf (protFrame_withProt _ c _).demands; exact ok]
  | stableRunExpiry c =>
    refine ⟨_, rfl, ?_⟩
    split <;> [exact lateOf (protFrame_withProt _ c _).demands; exact ok]
  | feederFuseTick =>
    refine ⟨_, exec_feederFuseTick s, Demands.demandsOk (s := s) (.trans (t := s.feederTicked) ?_ (demands_evaluateLevel _ s)) ok⟩
    exact demands_frame s ..
  | floorExpiry src =>
    refine ⟨_, rfl, ?_⟩
    split <;> [exact lateOf (demands_setFloor _ src none); exact ok]
  | lineLevelChange l high =>
    refine ⟨_, rfl, ?_⟩
    split <;> [exact ok; exact reconsider_demandsOk ((sameDemands_setLine s l { s.line l with high := high } rfl).demands.demandsOk ok) l]
  | debounceExpiry l floorFirst =>
    refine ⟨_, rfl, ?_⟩
    split <;> [exact settle_demandsOk (late _) l floorFirst; exact ok]
  | _ => cases event

/-- Settles O6: lists, LINE entries and SERVICE entries each stay in order under every command. -/
theorem demandListsStayInOrder : Obligations.DemandListsStayInOrder := fun _ _ =>
  demandsOk_owners.step (fun s _ h => ((sameDemands_of_frame (s := s) (fun _ => rfl) rfl rfl).demands.demandsOk h))
    fun _ s event ok => demandsOk_event s event ok

end Sys2Proof.Machine
end

section
/-! SUPPORT. The moves of an output as one write of the channel's records each: entries to INRUSH, RUNNING, WAITING and OFF
(R122 to R137), and the admissions from the queue (R125, R126). -/

namespace Sys2Proof.Machine

/-! ### Entries to an output state (R140) -/

/-- The channel after an entry to INRUSH or RUNNING: a switch-on from OFF and WAITING, and none otherwise (R119, R140). -/
def ChannelState.entered (x : ChannelState) (now : Moment) (out : OutState) (kind : SampleKind)
    (allowance : Option Moment) : ChannelState :=
  if x.sw.out.isOn then x.movedOn out kind allowance else x.switchedOn now out kind allowance

/-- The channel after it leaves OFF for WAITING (R113, R122). -/
def ChannelState.queued (x : ChannelState) : ChannelState :=
  { x with
    sw := { x.sw with out := .waiting }
    sense := { x.sense with kind := .voltage }
    prot := { x.prot with offWait := .cleared, offCount := 0 } }

theorem OutState.ne_off_of_isOn {o : OutState} (h : o.isOn = true) : o ≠ .off := by rintro rfl; cases h

/-- An entry to INRUSH or RUNNING, reported (R140). -/
theorem State.setOut_on (s : State) (c : Channel) {out : OutState} (on : out.isOn = true) :
    s.setOut c out =
      s.setChan c ((s.chan c).entered s.now out (s.kindFor c out) (s.chan c).sw.allowance) := by
  have entered := OutState.ne_off_of_isOn on
  unfold State.setOut ChannelState.entered ProtRecord.report SenseRecord.report
  by_cases was : (s.chan c).sw.out.isOn = true
  · have left := OutState.ne_off_of_isOn was
    simp [was, on, entered, left, ChannelState.movedOn]
  · simp [was, on, entered, ChannelState.switchedOn]

/-- The entry from OFF to WAITING, reported (R140). -/
theorem State.setOut_waiting {s : State} {c : Channel} (off : (s.chan c).sw.out = .off) :
    s.setOut c .waiting = s.setChan c (s.chan c).queued := by
  unfold State.setOut ProtRecord.report SenseRecord.report
  simp [off, OutState.isOn, ChannelState.queued, State.kindFor]

/-- An entry to OFF, reported, and the allowance dropped (R123, R140). -/
theorem State.setOut_off {s : State} {c : Channel} (ne : (s.chan c).sw.out ≠ .off) :
    (s.setOut c .off).dropAllowance c = s.setChan c ((s.chan c).switchedOff s.now) := by
  unfold State.dropAllowance State.setOut ProtRecord.report SenseRecord.report
  simp [ne, OutState.isOn, ChannelState.switchedOff, State.kindFor, State.withSwitch]

/-- The channel as an entry to INRUSH leaves it, under its profile's window (R119, R126, R135). -/
def ChannelState.inrushed (x : ChannelState) (p : Profile) (now : Moment) : ChannelState :=
  x.entered now (.inrush (now + 100 * p.window)) .current (some (now + 100 * p.window))

theorem ChannelState.entered_allowance (x : ChannelState) (now : Moment) (out : OutState) (kind : SampleKind)
    (a b : Option Moment) :
    { x.entered now out kind a with sw := { (x.entered now out kind a).sw with allowance := b } } = x.entered now out kind b := by
  unfold ChannelState.entered
  split <;> rfl

theorem State.enterInrush_eq (s : State) (c : Channel) :
    s.enterInrush c = s.setChan c ((s.chan c).inrushed (s.profile c) s.now) := by
  unfold State.enterInrush State.startAllowance State.withSwitch
  rw [State.setOut_on s c rfl, State.chan_setChan_self, State.setChan_setChan, ChannelState.entered_allowance]
  rfl

/-- The first period of RUNNING (R131, R133). -/
theorem State.startPeriod_eq (s : State) (c : Channel) (g : Staged) :
    s.startPeriod c g = s.setChan c ((s.chan c).entered s.now (g.running (s.profile c).period s.now).1
      (g.running (s.profile c).period s.now).2 (s.chan c).sw.allowance) := by
  cases g with
  | steady => exact s.setOut_on c rfl
  | pwm d => exact s.setOut_on c rfl

/-! ### Patterns (R136, R137) -/

/-- The allowance of a channel that joins a pattern: started in ON_PHASE for a lamp or motor with a window (R130, R136). -/
def joinAllowance (p : Profile) (on : Bool) (now : Moment) (old : Option Moment) : Option Moment :=
  if on = true ∧ (p.kind = 0 ∨ p.kind = 2) ∧ 0 < p.window then some (now + 100 * p.window) else old

/-- The channel as a join of a pattern leaves it, with the pattern in ON_PHASE or not. -/
def ChannelState.joined (x : ChannelState) (p : Profile) (f : Pattern) (on : Bool) (now : Moment) : ChannelState :=
  x.entered now (.flash f) (if on then .current else .voltage) (joinAllowance p on now x.sw.allowance)

/-- The allowance that a join in ON_PHASE starts (R130, R136). -/
theorem State.phaseAllowance_eq (s : State) (c : Channel) (on : Bool) :
    (if on = true then s.phaseAllowance c else s) = s.setChan c { s.chan c with
      sw := { (s.chan c).sw with allowance := joinAllowance (s.profile c) on s.now (s.chan c).sw.allowance } } := by
  unfold joinAllowance State.phaseAllowance
  cases on with
  | false => exact (s.setChan_chan c).symm
  | true =>
    by_cases queueUsing : (s.profile c).queueUsing = true
    · simp [queueUsing, (Profile.queueUsing_iff _).1 queueUsing, State.startAllowance, State.withSwitch,
        Profile.windowLength]
    · simp only [queueUsing, mt (Profile.queueUsing_iff _).2 queueUsing]
      exact (s.setChan_chan c).symm

theorem State.joinPattern_eq (s : State) (c : Channel) (f : Pattern) :
    s.joinPattern c f = ({ s with gens := s.gens.set f (s.genJoined f) } : State).setChan c
      ((s.chan c).joined (s.profile c) f (s.genJoined f).isOn s.now) := by
  have on : (s.setGen f (s.genJoined f)).patternOn f = (s.genJoined f).isOn := by
    rw [State.patternOn, State.setGen_get, if_pos rfl]
  have entered : (s.setGen f (s.genJoined f)).setOut c (.flash f) = (s.setGen f (s.genJoined f)).setChan c
      ((s.chan c).entered s.now (.flash f) (if (s.genJoined f).isOn then .current else .voltage) (s.chan c).sw.allowance) := by
    rw [State.setOut_on _ c rfl, State.kindFor, on]
    rfl
  change (if ((s.setGen f (s.genJoined f)).setOut c (.flash f)).patternOn f = true then
    ((s.setGen f (s.genJoined f)).setOut c (.flash f)).phaseAllowance c
    else (s.setGen f (s.genJoined f)).setOut c (.flash f)) = _
  rw [State.phaseAllowance_eq, entered, State.chan_setChan_self, State.setChan_setChan, ChannelState.entered_allowance]
  have still : ((s.setGen f (s.genJoined f)).setChan c ((s.chan c).entered s.now (.flash f)
      (if (s.genJoined f).isOn then .current else .voltage) (s.chan c).sw.allowance)).patternOn f = (s.genJoined f).isOn := on
  have allowance : ((s.chan c).entered s.now (.flash f) (if (s.genJoined f).isOn then .current else .voltage)
      (s.chan c).sw.allowance).sw.allowance = (s.chan c).sw.allowance := by unfold ChannelState.entered; split <;> rfl
  rw [still, allowance]
  rfl

/-! ### The switch-on queue (R124 to R126) -/

theorem inFrontGroup_iff (cls : Option Sys2Proof.Class) :
    inFrontGroup cls = true ↔ cls = some .safety ∨ cls = some .force := by
  cases cls with
  | none => simp [inFrontGroup]
  | some k => cases k <;> simp [inFrontGroup, Class.high]

theorem SwitchQueue.join_eq (q : SwitchQueue) (c : Channel) (cls : Option Sys2Proof.Class) :
    q.join c cls = q.withTail c cls := by
  unfold SwitchQueue.join SwitchQueue.withTail
  exact if_congr (inFrontGroup_iff cls) rfl rfl

theorem SwitchQueue.head_eq (q : SwitchQueue) : q.head = (q.front ++ q.back).head? := by
  unfold SwitchQueue.head
  cases q.front <;> rfl

theorem SwitchQueue.size_eq (q : SwitchQueue) : q.size = (q.front ++ q.back).length := by
  rw [List.length_append]; rfl

/-- The admission of a head (R126). -/
theorem State.admitHead_eq {s : State} {c : Channel} (head : s.queue.head = some c) :
    s.admitHead = ({ s with queue := { s.queue.without c with lastAdmission := some s.now } } : State).setChan c
      ((s.chan c).inrushed (s.profile c) s.now) := by
  unfold State.admitHead
  rw [head]
  exact State.enterInrush_eq _ c

theorem State.admissionDue_iff (s : State) :
    s.admissionDue = true ↔ (∃ c, s.queue.head = some c) ∧
      ∀ last, s.queue.lastAdmission = some last → last + 10 * s.cfg.zone.admissionInterval ≤ s.now := by
  unfold State.admissionDue
  rw [Bool.and_eq_true, Option.isSome_iff_exists]
  cases s.queue.lastAdmission <;> simp

/-- A row of admissions ends where the condition does (R125). -/
theorem State.admitUpTo_of_not_due {s : State} (h : s.admissionDue = false) : ∀ n, s.admitUpTo n = s
  | 0 => rfl
  | n + 1 => by rw [State.admitUpTo, h]; rfl

theorem SwitchQueue.head_none_of_empty {q : SwitchQueue} (h : q.front ++ q.back = []) : q.head = none := by
  rw [q.head_eq, h]; rfl

/-- The queue without its head. -/
theorem SwitchQueue.without_head_length {q : SwitchQueue} {c : Channel} (head : q.head = some c) :
    ((q.without c).front ++ (q.without c).back).length < (q.front ++ q.back).length := by
  rw [SwitchQueue.head_eq] at head
  have mem : c ∈ q.front ∨ c ∈ q.back := List.mem_append.1 (List.mem_of_mem_head? head)
  simp only [SwitchQueue.without, List.length_append]
  have front := List.length_erase_le (a := c) (l := q.front)
  have back := List.length_erase_le (a := c) (l := q.back)
  rcases mem with mem | mem
  · have := List.length_erase_of_mem mem
    have := List.length_pos_of_mem mem
    omega
  · have := List.length_erase_of_mem mem
    have := List.length_pos_of_mem mem
    omega

theorem ChannelState.inrushed_waiting {x : ChannelState} (h : x.sw.out = .waiting) (p : Profile) (now : Moment) :
    x.inrushed p now = x.admittedAt p now := by
  unfold ChannelState.inrushed ChannelState.entered
  rw [h]
  rfl

/-- A second admission at the same moment changes nothing. -/
theorem ChannelState.inrushed_admittedAt (x : ChannelState) (p : Profile) (now : Moment) :
    (x.admittedAt p now).inrushed p now = x.admittedAt p now := rfl

/-- What a row of admissions at an interval of 0 makes of a state: an empty queue, and every waiting channel of the queue
in INRUSH. -/
structure AllAdmitted (s t : State) : Prop where
  frame : t = { s with chans := t.chans, queue := ⟨[], [], some s.now⟩ }
  waiting : ∀ c, c ∈ s.queue.front ++ s.queue.back → (s.chan c).sw.out = .waiting →
    t.chan c = (s.chan c).admittedAt (s.profile c) s.now
  admitted : ∀ c (x : ChannelState), s.chan c = x.admittedAt (s.profile c) s.now → t.chan c = s.chan c
  others : ∀ c, c ∉ s.queue.front ++ s.queue.back → t.chan c = s.chan c

theorem SwitchQueue.mem_without_ne {q : SwitchQueue} {c d : Channel} (ne : d ≠ c) :
    d ∈ (q.without c).front ++ (q.without c).back ↔ d ∈ q.front ++ q.back := by
  simp only [SwitchQueue.without, List.mem_append, List.mem_erase_of_ne ne]

/-- The condition holds at an interval of 0 where the last admission is not in the future and a channel waits. -/
theorem State.admissionDue_of_interval_zero {s : State} {c : Channel} (head : s.queue.head = some c)
    (interval : s.cfg.zone.admissionInterval = 0) (due : ∀ last, s.queue.lastAdmission = some last → last ≤ s.now) :
    s.admissionDue = true :=
  (s.admissionDue_iff).2 ⟨⟨c, head⟩, fun last h => by rw [interval]; exact due last h⟩

theorem admitUpTo_allAdmitted : ∀ (n : Nat) (s : State), (s.queue.front ++ s.queue.back).length ≤ n →
    s.queue.front ++ s.queue.back ≠ [] → s.cfg.zone.admissionInterval = 0 →
    (∀ last, s.queue.lastAdmission = some last → last ≤ s.now) → AllAdmitted s (s.admitUpTo n)
  | 0, s, size, queued, _, _ => absurd (List.eq_nil_of_length_eq_zero (Nat.le_zero.1 size)) queued
  | n + 1, s, size, queued, interval, due => by
    obtain ⟨c, head⟩ : ∃ c, s.queue.head = some c := by
      rw [s.queue.head_eq]
      exact Option.ne_none_iff_exists'.1 (mt List.head?_eq_none_iff.1 queued)
    have mem : c ∈ s.queue.front ++ s.queue.back := by
      rw [s.queue.head_eq] at head
      exact List.mem_of_mem_head? head
    have shorter := SwitchQueue.without_head_length head
    rw [State.admitUpTo, if_pos (State.admissionDue_of_interval_zero head interval due), State.admitHead_eq head]
    generalize hu : ({ s with queue := { s.queue.without c with lastAdmission := some s.now } } : State).setChan c
      ((s.chan c).inrushed (s.profile c) s.now) = u
    have own : u.chan c = (s.chan c).inrushed (s.profile c) s.now := by rw [← hu, State.chan_setChan_self]
    have other (d : Channel) (ne : d ≠ c) : u.chan d = s.chan d := by rw [← hu, State.chan_setChan_ne _ _ ne]; rfl
    have profile (d : Channel) : u.profile d = s.profile d := by rw [← hu]; rfl
    have now : u.now = s.now := by rw [← hu]; rfl
    have queue : u.queue = { s.queue.without c with lastAdmission := some s.now } := by rw [← hu]; rfl
    have cfg : u.cfg = s.cfg := by rw [← hu]; rfl
    have members (d : Channel) (ne : d ≠ c) : d ∈ u.queue.front ++ u.queue.back ↔ d ∈ s.queue.front ++ s.queue.back := by
      rw [queue]; exact SwitchQueue.mem_without_ne ne
    have ownWaiting (h : (s.chan c).sw.out = .waiting) : u.chan c = (s.chan c).admittedAt (s.profile c) s.now := by
      rw [own, ChannelState.inrushed_waiting h]
    have ownAdmitted (x : ChannelState) (h : s.chan c = x.admittedAt (s.profile c) s.now) : u.chan c = s.chan c := by
      rw [own, h, ChannelState.inrushed_admittedAt]
    by_cases last : u.queue.front ++ u.queue.back = []
    · have idle : u.admissionDue = false := Bool.eq_false_iff.2 fun h => by
        obtain ⟨⟨d, hd⟩, -⟩ := (u.admissionDue_iff).1 h
        rw [SwitchQueue.head_none_of_empty last] at hd
        cases hd
      rw [State.admitUpTo_of_not_due idle]
      obtain ⟨front, back⟩ := List.append_eq_nil_iff.1 last
      refine ⟨?_, fun d hd w => ?_, fun d x h => ?_, fun d hd => other d fun e => hd (e ▸ mem)⟩
      · have emptied : u.queue = ⟨[], [], some s.now⟩ := by
          have since : u.queue.lastAdmission = some s.now := by rw [queue]
          calc u.queue = ⟨u.queue.front, u.queue.back, u.queue.lastAdmission⟩ := rfl
            _ = _ := by rw [front, back, since]
        rw [← emptied, ← hu]; rfl
      · by_cases e : d = c
        · subst e; exact ownWaiting w
        · exact absurd ((members d e).2 hd) (by rw [last]; exact List.not_mem_nil)
      · by_cases e : d = c
        · subst e; exact ownAdmitted x h
        · exact other d e
    · have shorter' : (u.queue.front ++ u.queue.back).length ≤ n := by
        rw [queue]; exact Nat.le_of_lt_succ (Nat.lt_of_lt_of_le shorter size)
      obtain ⟨frame, waiting, admitted, others⟩ := admitUpTo_allAdmitted n u shorter' last (by rw [cfg]; exact interval)
        fun l h => by rw [queue] at h; rw [now]; exact (Option.some.inj h).symm.le
      refine ⟨?_, fun d hd w => ?_, fun d x h => ?_, fun d hd => ?_⟩
      · rw [now] at frame; rw [frame, ← hu]; rfl
      · by_cases e : d = c
        · subst e
          rw [admitted d (s.chan d) (by rw [ownWaiting w, profile, now]), ownWaiting w]
        · rw [waiting d ((members d e).2 hd) (by rw [other d e]; exact w), other d e, profile, now]
      · by_cases e : d = c
        · subst e
          have kept := ownAdmitted x h
          rw [admitted d x (by rw [kept, h, profile, now]), kept]
        · rw [admitted d x (by rw [other d e, h, profile, now]), other d e]
      · have ne : d ≠ c := fun e => hd (e ▸ mem)
        rw [others d (mt (members d ne).1 hd), other d ne]

/-- The test of the admission condition, as the statements have it (R125, R126). -/
theorem State.admitQueued_tested (s : State) : s.AdmissionTested s.admitQueued := by
  unfold State.admitQueued
  refine ⟨fun idle => State.admitUpTo_of_not_due (Bool.eq_false_iff.2 fun h => ?_) _, fun c rest queued due interval waiting => ?_,
    fun queued due interval => ?_⟩
  · obtain ⟨⟨c, head⟩, due⟩ := (s.admissionDue_iff).1 h
    rcases idle with empty | not_due
    · rw [SwitchQueue.head_none_of_empty empty] at head; cases head
    · exact not_due due
  · have head : s.queue.head = some c := by rw [s.queue.head_eq, queued]; rfl
    have size : s.queue.size = rest.length + 1 := by rw [s.queue.size_eq, queued]; rfl
    rw [size, State.admitUpTo, if_pos ((s.admissionDue_iff).2 ⟨⟨c, head⟩, due⟩), State.admitHead_eq head,
      ChannelState.inrushed_waiting waiting]
    refine State.admitUpTo_of_not_due (Bool.eq_false_iff.2 fun h => ?_) _
    have passed := ((State.admissionDue_iff _).1 h).2 s.now rfl
    exact absurd passed (Nat.not_le.2 (Nat.lt_add_of_pos_right interval))
  · have zero : s.cfg.zone.admissionInterval = 0 := (Nat.mul_eq_zero.1 interval).resolve_left (by decide)
    have all := admitUpTo_allAdmitted s.queue.size s (by rw [s.queue.size_eq]) queued zero fun last h =>
      Nat.le_trans (Nat.le_add_right _ _) (due last h)
    exact ⟨all.frame, fun c => ⟨all.waiting c, all.others c⟩⟩

end Sys2Proof.Machine
end

section
/-! SUPPORT. What a hand-over does, by the output state it finds (R121 to R127, R132, R135), and the events of the switch
controller's timers (R126, R129, R131, R137). -/

namespace Sys2Proof.Machine

/-! ### What a hand-over records -/

/-- The channel with the pair of a hand-over recorded (R121). -/
def ChannelState.handed (x : ChannelState) (g : Granted) (cls : Option Sys2Proof.Class) : ChannelState :=
  { x with sw := { x.sw with granted := g, cls := cls } }

/-- The state with the pair of a hand-over recorded. -/
def State.recorded (s : State) (c : Channel) (g : Granted) (cls : Option Sys2Proof.Class) : State :=
  s.setChan c ((s.chan c).handed g cls)

@[simp] theorem State.recorded_chan (s : State) (c : Channel) (g : Granted) (cls : Option Sys2Proof.Class) :
    (s.recorded c g cls).chan c = (s.chan c).handed g cls := State.chan_setChan_self ..

theorem State.handOver_eq (s : State) (c : Channel) (g : Granted) (cls : Option Sys2Proof.Class) :
    s.handOver c g cls = (s.recorded c g cls).actOn c g := rfl

/-- A write of the channel replaces the recorded pair with all the rest. -/
@[simp] theorem State.recorded_setChan (s : State) (c : Channel) (g : Granted) (cls : Option Sys2Proof.Class)
    (x : ChannelState) : (s.recorded c g cls).setChan c x = s.setChan c x := State.setChan_setChan ..

/-! ### From OFF (R122) -/

theorem ChannelState.entered_off {x : ChannelState} (h : x.sw.out.isOn = false) (now : Moment) (out : OutState)
    (kind : SampleKind) (allowance : Option Moment) :
    x.entered now out kind allowance = x.switchedOn now out kind allowance := by
  unfold ChannelState.entered
  rw [h]
  rfl

theorem ChannelState.entered_on {x : ChannelState} (h : x.sw.out.isOn = true) (now : Moment) (out : OutState)
    (kind : SampleKind) (allowance : Option Moment) :
    x.entered now out kind allowance = x.movedOn out kind allowance := by
  unfold ChannelState.entered
  rw [h]
  rfl

/-- The line of R122 that a granted STEADY or PWM takes. -/
theorem State.leaveOff_staged (s : State) (c : Channel) (g : Staged) :
    s.leaveOff c g.granted =
      if (s.profile c).queueUsing then
        if 0 < s.cfg.zone.admissionInterval then s.joinQueue c
        else ({ s with queue := { s.queue with lastAdmission := some s.now } } : State).enterInrush c
      else if 0 < (s.profile c).window then s.enterInrush c
      else s.startPeriod c g := by
  cases g <;> rfl

theorem State.actOn_off {s : State} {c : Channel} (out : (s.chan c).sw.out = .off) {g : Granted} (h : g ≠ .off) :
    s.actOn c g = s.leaveOff c g := by
  unfold State.actOn
  rw [out]
  cases g with
  | off => exact absurd rfl h
  | _ => rfl

theorem Staged.granted_ne_off (g : Staged) : g.granted ≠ .off := by cases g <;> nofun

/-- The move from OFF to WAITING, and the test of the admission condition (R122, R124). -/
theorem State.joinQueue_eq {s : State} {c : Channel} (out : (s.chan c).sw.out = .off) :
    s.joinQueue c = (({ s with queue := s.queue.withTail c (s.chan c).sw.cls } : State).setChan c (s.chan c).queued).admitQueued := by
  have entered : ({ s with queue := s.queue.join c (s.chan c).sw.cls } : State).setOut c .waiting =
      ({ s with queue := s.queue.withTail c (s.chan c).sw.cls } : State).setChan c (s.chan c).queued := by
    rw [SwitchQueue.join_eq]
    exact State.setOut_waiting (s := { s with queue := s.queue.withTail c (s.chan c).sw.cls }) out
  exact congrArg State.admitQueued entered

theorem State.joinQueue_recorded {s : State} {c : Channel} (out : (s.chan c).sw.out = .off) (g : Granted)
    (cls : Option Sys2Proof.Class) :
    (s.recorded c g cls).joinQueue c =
      (({ s with queue := s.queue.withTail c cls } : State).setChan c ((s.chan c).handed g cls).queued).admitQueued := by
  rw [State.joinQueue_eq (by rw [State.recorded_chan]; exact out), State.recorded_chan]
  exact congrArg State.admitQueued (State.setChan_setChan { s with queue := s.queue.withTail c cls } c _ _)

/-- Settles O31: the lines of R122, each one write of the channel's records. -/
theorem handOverLeavesOff : Obligations.HandOverLeavesOff := by
  intro s c g cls out p x queueUsing ends t
  have outX : ((s.recorded c g cls).chan c).sw.out = .off := by rw [State.recorded_chan]; exact out
  have notOn : ((s.chan c).handed g cls).sw.out.isOn = false := by
    have same : ((s.chan c).handed g cls).sw.out = .off := out
    rw [same]; rfl
  have profile : (s.recorded c g cls).profile c = p := rfl
  have left (h : g ≠ .off) : t = (s.recorded c g cls).leaveOff c g := State.actOn_off outX h
  refine ⟨fun h => ?_, fun f h => ?_, fun staged h => ?_⟩
  · subst h
    change (s.recorded c .off cls).actOn c .off = _
    unfold State.actOn
    rw [outX]
    rfl
  · subst h
    rw [left nofun]
    change (s.recorded c (.flash f) cls).joinPattern c f = _
    rw [State.joinPattern_eq, State.recorded_chan]
    unfold ChannelState.joined
    rw [ChannelState.entered_off notOn]
    exact State.setChan_setChan { s with gens := s.gens.set f (s.genJoined f) } c _ _
  · subst h
    have line := left staged.granted_ne_off
    rw [State.leaveOff_staged, profile] at line
    have interval : (s.recorded c staged.granted cls).cfg.zone.admissionInterval = s.cfg.zone.admissionInterval := rfl
    have inrush (u : State) (hu : u.chan c = (s.chan c).handed staged.granted cls) (now : u.now = s.now) (cfg : u.cfg = s.cfg) :
        u.enterInrush c = u.setChan c (x.switchedOn s.now (.inrush ends) .current (some ends)) := by
      rw [State.enterInrush_eq, hu, now]
      unfold ChannelState.inrushed State.profile
      rw [ChannelState.entered_off notOn, cfg]
      rfl
    rw [interval] at line
    refine ⟨fun uses positive => ?_, fun uses zero => ?_, fun unused window => ?_, fun window => ?_⟩
    · rw [line, if_pos ((Profile.queueUsing_iff p).2 uses), if_pos positive]
      rw [State.joinQueue_recorded out]
      exact State.admitQueued_tested _
    · rw [line, if_pos ((Profile.queueUsing_iff p).2 uses), if_neg (by rw [zero]; exact Nat.lt_irrefl 0)]
      refine (inrush { s.recorded c staged.granted cls with queue := { s.queue with lastAdmission := some s.now } }
        (State.recorded_chan ..) rfl rfl).trans ?_
      exact State.setChan_setChan { s with queue := { s.queue with lastAdmission := some s.now } } c _ _
    · rw [line, if_neg (mt (Profile.queueUsing_iff p).1 unused), if_pos window, inrush _ (State.recorded_chan ..) rfl rfl]
      exact State.setChan_setChan ..
    · have none : ¬0 < p.window := by rw [window]; exact Nat.lt_irrefl 0
      rw [line, if_neg fun h => none ((Profile.queueUsing_iff p).1 h).2, if_neg none, State.startPeriod_eq, State.recorded_chan,
        ChannelState.entered_off notOn]
      exact State.setChan_setChan ..

/-! ### From WAITING, INRUSH and RUNNING (R123, R127, R132, R135) -/

theorem State.joinPattern_recorded (s : State) (c : Channel) (g : Granted) (cls : Option Sys2Proof.Class) (f : Pattern) :
    (s.recorded c g cls).joinPattern c f = ({ s with gens := s.gens.set f (s.genJoined f) } : State).setChan c
      (((s.chan c).handed g cls).joined (s.profile c) f (s.genJoined f).isOn s.now) := by
  rw [State.joinPattern_eq, State.recorded_chan]
  exact State.setChan_setChan { s with gens := s.gens.set f (s.genJoined f) } c _ _

theorem State.setOut_off_recorded {s : State} {c : Channel} (ne : (s.chan c).sw.out ≠ .off) (g : Granted)
    (cls : Option Sys2Proof.Class) :
    ((s.recorded c g cls).setOut c .off).dropAllowance c = s.setChan c (((s.chan c).handed g cls).switchedOff s.now) := by
  rw [State.setOut_off (by rw [State.recorded_chan]; exact ne), State.recorded_chan, State.recorded_setChan]
  rfl

theorem State.startPeriod_recorded (s : State) (c : Channel) (g : Granted) (cls : Option Sys2Proof.Class) (staged : Staged) :
    (s.recorded c g cls).startPeriod c staged = s.setChan c (((s.chan c).handed g cls).entered s.now
      (staged.running (s.profile c).period s.now).1 (staged.running (s.profile c).period s.now).2 (s.chan c).sw.allowance) := by
  rw [State.startPeriod_eq, State.recorded_chan]
  exact State.setChan_setChan ..

theorem State.enterInrush_recorded (s : State) (c : Channel) (g : Granted) (cls : Option Sys2Proof.Class) :
    (s.recorded c g cls).enterInrush c = s.setChan c (((s.chan c).handed g cls).inrushed (s.profile c) s.now) := by
  rw [State.enterInrush_eq, State.recorded_chan]
  exact State.setChan_setChan ..

/-- RUNNING STEADY or PWM (R119). -/
def OutState.inPeriod : OutState → Bool
  | .steady _ _ => true
  | .pwm _ _ _ _ => true
  | .off => false
  | .waiting => false
  | .inrush _ => false
  | .flash _ => false

theorem OutState.isOn_of_inPeriod {o : OutState} (h : o.inPeriod = true) : o.isOn = true := by
  cases o <;> first | rfl | cases h

theorem State.actOn_turnOff {s : State} {c : Channel} (h : (s.chan c).sw.out ≠ .off) : s.actOn c .off = s.turnOff c := by
  unfold State.actOn
  cases e : (s.chan c).sw.out with
  | off => exact absurd e h
  | _ => rfl

theorem State.turnOff_on {s : State} {c : Channel} (h : (s.chan c).sw.out.isOn = true)
    (flash : ∀ f, (s.chan c).sw.out ≠ .flash f) : s.turnOff c = (s.setOut c .off).dropAllowance c := by
  unfold State.turnOff
  cases e : (s.chan c).sw.out with
  | off => rw [e] at h; cases h
  | waiting => rw [e] at h; cases h
  | flash f => exact absurd e (flash f)
  | _ => rfl

theorem State.turnOff_waiting {s : State} {c : Channel} (h : (s.chan c).sw.out = .waiting) :
    s.turnOff c = (((s.unqueue c).setOut c .off).dropAllowance c).admitQueued := by
  unfold State.turnOff
  rw [h]

theorem State.turnOff_flash {s : State} {c : Channel} {f : Pattern} (h : (s.chan c).sw.out = .flash f) :
    s.turnOff c = ((s.leavePattern f).setOut c .off).dropAllowance c := by
  unfold State.turnOff
  rw [h]

theorem State.actOn_waiting_flash {s : State} {c : Channel} (h : (s.chan c).sw.out = .waiting) (f : Pattern) :
    s.actOn c (.flash f) = ((s.unqueue c).joinPattern c f).admitQueued := by
  unfold State.actOn
  rw [h]

theorem State.actOn_waiting_staged {s : State} {c : Channel} (h : (s.chan c).sw.out = .waiting) (g : Staged) :
    s.actOn c g.granted = s.regroup c := by
  unfold State.actOn
  rw [h]
  cases g <;> rfl

theorem State.actOn_inrush {s : State} {c : Channel} {ends : Moment} (h : (s.chan c).sw.out = .inrush ends) {g : Granted}
    (ne : g ≠ .off) : s.actOn c g = s := by
  unfold State.actOn
  rw [h]
  cases g with
  | off => exact absurd rfl ne
  | _ => rfl

/-- In a period a granted STEADY or PWM is staged (R132). -/
theorem State.actOn_period {s : State} {c : Channel} (h : (s.chan c).sw.out.inPeriod = true) (g : Staged) :
    s.actOn c g.granted = s.withSwitch c fun w => { w with out := (s.chan c).sw.out.stage g } := by
  unfold State.actOn
  cases e : (s.chan c).sw.out with
  | steady => cases g <;> rfl
  | pwm => cases g <;> rfl
  | _ => rw [e] at h; cases h

theorem State.actOn_period_flash {s : State} {c : Channel} (h : (s.chan c).sw.out.inPeriod = true) (f : Pattern) :
    s.actOn c (.flash f) = s.joinPattern c f := by
  unfold State.actOn
  cases e : (s.chan c).sw.out with
  | steady => rfl
  | pwm => rfl
  | _ => rw [e] at h; cases h

theorem State.actOn_flash_flash {s : State} {c : Channel} {f : Pattern} (h : (s.chan c).sw.out = .flash f) (q : Pattern) :
    s.actOn c (.flash q) = if f = q then s else (s.leavePattern f).joinPattern c q := by
  unfold State.actOn
  rw [h]

theorem State.actOn_flash_staged {s : State} {c : Channel} {f : Pattern} (h : (s.chan c).sw.out = .flash f) (g : Staged) :
    s.actOn c g.granted =
      if !s.patternOn f && (s.profile c).queueUsing then (s.leavePattern f).enterInrush c
      else (s.leavePattern f).startPeriod c g := by
  unfold State.actOn
  rw [h]
  cases g <;> rfl

theorem SwitchQueue.stands_iff (q : SwitchQueue) (c : Channel) (cls : Option Sys2Proof.Class) :
    q.stands c cls = true ↔ if cls = some .safety ∨ cls = some .force then c ∈ q.front else c ∈ q.back := by
  unfold SwitchQueue.stands
  by_cases front : inFrontGroup cls = true
  · rw [if_pos front, if_pos ((inFrontGroup_iff cls).1 front), List.contains_iff_mem]
  · rw [if_neg front, if_neg (mt (inFrontGroup_iff cls).2 front), List.contains_iff_mem]

/-- The move of a waiting channel to the other group (R127). -/
theorem State.regroup_eq (s : State) (c : Channel) :
    s.regroup c =
      if s.queue.stands c (s.chan c).sw.cls then s
      else
        let moved : State := { s with queue := (s.queue.without c).withTail c (s.chan c).sw.cls }
        if moved.queue.head = s.queue.head then moved else moved.admitQueued := by
  unfold State.regroup
  simp only [SwitchQueue.join_eq]
  rfl

theorem Generator.isOn_iff (g : Generator) :
    g.isOn = true ↔ ∃ due onTime offTime, g.state = .running .on due onTime offTime := by
  unfold Generator.isOn
  split
  · next e => exact ⟨fun _ => ⟨_, _, _, e⟩, fun _ => rfl⟩
  · next e => exact ⟨nofun, fun ⟨_, _, _, h⟩ => by rw [e] at h; cases h⟩
  · next e => exact ⟨nofun, fun ⟨_, _, _, h⟩ => by rw [e] at h; cases h⟩

/-- A waiting channel is taken out of the queue and turned off (R123). -/
theorem State.turnOff_waiting_recorded {s : State} {c : Channel} (h : (s.chan c).sw.out = .waiting) (g : Granted)
    (cls : Option Sys2Proof.Class) :
    (s.recorded c g cls).turnOff c =
      (({ s with queue := s.queue.without c } : State).setChan c (((s.chan c).handed g cls).switchedOff s.now)).admitQueued := by
  rw [State.turnOff_waiting (by rw [State.recorded_chan]; exact h)]
  exact congrArg State.admitQueued
    (State.setOut_off_recorded (s := { s with queue := s.queue.without c }) (fun e => absurd (h.symm.trans e) nofun) g cls)

/-- A flashing channel leaves its pattern and is turned off (R123). -/
theorem State.turnOff_flash_recorded {s : State} {c : Channel} {f : Pattern} (h : (s.chan c).sw.out = .flash f) (g : Granted)
    (cls : Option Sys2Proof.Class) :
    (s.recorded c g cls).turnOff c =
      ({ s with gens := s.gens.set f s.gens[f].left } : State).setChan c (((s.chan c).handed g cls).switchedOff s.now) := by
  rw [State.turnOff_flash (by rw [State.recorded_chan]; exact h)]
  exact State.setOut_off_recorded (s := { s with gens := s.gens.set f s.gens[f].left })
    (fun e => absurd (h.symm.trans e) nofun) g cls

theorem State.turnOff_on_recorded {s : State} {c : Channel} (h : (s.chan c).sw.out.isOn = true)
    (flash : ∀ f, (s.chan c).sw.out ≠ .flash f) (g : Granted) (cls : Option Sys2Proof.Class) :
    (s.recorded c g cls).turnOff c = s.setChan c (((s.chan c).handed g cls).switchedOff s.now) := by
  rw [State.turnOff_on (by rw [State.recorded_chan]; exact h) (by rw [State.recorded_chan]; exact flash)]
  exact State.setOut_off_recorded (OutState.ne_off_of_isOn h) g cls

/-- Settles O32: for each output state the arm of the hand-over as one write of the channel's records. -/
theorem handOverMovesOutput : Obligations.HandOverMovesOutput := by
  intro s c g cls p x recorded queueUsing ends removed t joinsFrom inPeriods
  have outR : ((s.recorded c g cls).chan c).sw.out = (s.chan c).sw.out := by rw [State.recorded_chan]; rfl
  have joins (u : State) (f : Pattern) (moved : ChannelState → OutState → SampleKind → Option Moment → ChannelState)
      (enters : ∀ out kind allowance, x.entered s.now out kind allowance = moved x out kind allowance)
      (same : u.chan c = s.chan c) (now : u.now = s.now) (cfg : u.cfg = s.cfg) :
      (u.recorded c g cls).joinPattern c f = joinsFrom u f moved := by
    have profile : u.profile c = p := by unfold State.profile; rw [cfg]; rfl
    rw [State.joinPattern_recorded]
    refine congrArg (State.setChan { u with gens := u.gens.set f (u.genJoined f) } c) ?_
    rw [same, now, profile]
    exact enters _ _ _
  have off (h : (s.chan c).sw.out ≠ .off) (e : g = .off) : t = (s.recorded c g cls).turnOff c := by
    rw [← State.actOn_turnOff (by rw [outR]; exact h)]
    exact congrArg ((s.recorded c g cls).actOn c) e
  have acts {g' : Granted} (e : g = g') : t = (s.recorded c g cls).actOn c g' := congrArg ((s.recorded c g cls).actOn c) e
  have periods (out : Staged → OutState) (h : (s.chan c).sw.out.inPeriod = true)
      (stage : ∀ staged, (s.chan c).sw.out.stage staged = out staged) : inPeriods out := by
    have on := OutState.isOn_of_inPeriod h
    have inPeriod : ((s.recorded c g cls).chan c).sw.out.inPeriod = true := by rw [outR]; exact h
    refine ⟨fun e => ?_, fun staged e => ?_, fun f e => ?_⟩
    · refine (off (OutState.ne_off_of_isOn on) e).trans (State.turnOff_on_recorded on (fun f flash => ?_) g cls)
      rw [flash] at h; cases h
    · rw [acts e, State.actOn_period inPeriod, outR, stage]
      unfold State.withSwitch
      rw [State.recorded_chan, State.recorded_setChan]
      rfl
    · rw [acts e, State.actOn_period_flash inPeriod]
      exact joins s f ChannelState.movedOn (ChannelState.entered_on (x := x) on _) rfl rfl rfl
  refine ⟨fun out => ?_, fun due out => ⟨fun e => ?_, fun ne => ?_⟩, fun old start out => ?_, fun duty onTime old start out => ?_,
    fun f out => ?_⟩
  · have waiting : ((s.recorded c g cls).chan c).sw.out = .waiting := outR.trans out
    have notOn : (s.chan c).sw.out.isOn = false := by rw [out]; rfl
    refine ⟨fun e => ?_, fun f e => ?_, fun staged e => ?_⟩
    · rw [off (by rw [out]; nofun) e, State.turnOff_waiting_recorded out]
      exact State.admitQueued_tested _
    · have joined : t = (joinsFrom { s with queue := removed } f fun y => y.switchedOn s.now).admitQueued := by
        rw [acts e, State.actOn_waiting_flash waiting]
        exact congrArg State.admitQueued (joins { s with queue := removed } f (fun y => y.switchedOn s.now)
          (ChannelState.entered_off (x := x) notOn _) rfl rfl rfl)
      rw [joined]
      exact State.admitQueued_tested _
    · intro stays moved heads
      have regrouped := (acts e).trans ((State.actOn_waiting_staged waiting staged).trans (State.regroup_eq ..))
      rw [State.recorded_chan] at regrouped
      have stands : (s.recorded c g cls).queue.stands c cls = true ↔ stays := SwitchQueue.stands_iff ..
      have sameHead : moved.queue.head = (s.recorded c g cls).queue.head ↔ heads moved.queue = heads s.queue := by
        rw [SwitchQueue.head_eq, SwitchQueue.head_eq]; rfl
      refine ⟨fun h => ?_, fun h same => ?_, fun h differ => ?_⟩
      · exact regrouped.trans (if_pos (stands.2 h))
      · exact regrouped.trans ((if_neg (mt stands.1 h)).trans (if_pos (sameHead.2 same)))
      · rw [regrouped.trans ((if_neg (mt stands.1 h)).trans (if_neg (mt sameHead.1 differ)))]
        exact State.admitQueued_tested _
  · have on : (s.chan c).sw.out.isOn = true := by rw [out]; rfl
    exact (off (OutState.ne_off_of_isOn on) e).trans (State.turnOff_on_recorded on (by rw [out]; nofun) g cls)
  · exact State.actOn_inrush (outR.trans out) ne
  · exact periods _ (by rw [out]; rfl) (by rw [out]; exact fun _ => rfl)
  · exact periods _ (by rw [out]; rfl) (by rw [out]; exact fun _ => rfl)
  · have on : (s.chan c).sw.out.isOn = true := by rw [out]; rfl
    have flash : ((s.recorded c g cls).chan c).sw.out = .flash f := outR.trans out
    intro left lit
    have patternOn : (s.recorded c g cls).patternOn f = true ↔ lit := Generator.isOn_iff _
    have uses : ((s.recorded c g cls).profile c).queueUsing = true ↔ queueUsing := Profile.queueUsing_iff _
    refine ⟨fun e => ?_, fun e => ?_, fun q e ne => ?_, fun staged e => ⟨fun dark lamp => ?_, fun h => ?_⟩⟩
    · exact (off (OutState.ne_off_of_isOn on) e).trans (State.turnOff_flash_recorded out g cls)
    · exact (acts e).trans ((State.actOn_flash_flash flash f).trans (if_pos rfl))
    · rw [acts e, State.actOn_flash_flash flash, if_neg (Ne.symm ne)]
      exact joins left q ChannelState.movedOn (ChannelState.entered_on (x := x) on _) rfl rfl rfl
    · rw [acts e, State.actOn_flash_staged flash, if_pos (by rw [uses.2 lamp, Bool.eq_false_iff.2 (mt patternOn.1 dark)]; rfl)]
      refine (State.enterInrush_recorded left c g cls).trans ?_
      unfold ChannelState.inrushed
      exact congrArg (left.setChan c) (ChannelState.entered_on (x := x) on _ _ _ _)
    · have skip : ¬(!(s.recorded c g cls).patternOn f && ((s.recorded c g cls).profile c).queueUsing) = true := by
        rw [Bool.and_eq_true, Bool.not_eq_true', uses]
        rintro ⟨dark, lamp⟩
        rcases h with h | h
        · rw [patternOn.2 h] at dark; cases dark
        · exact h lamp
      rw [acts e, State.actOn_flash_staged flash, if_neg skip]
      refine (State.startPeriod_recorded left c g cls staged).trans ?_
      exact congrArg (left.setChan c) (ChannelState.entered_on (x := x) on _ _ _ _)

end Sys2Proof.Machine
end

section
/-! SUPPORT. The events of the switch controller's timers (R126, R129, R131, R137). -/

namespace Sys2Proof.Machine

/-! ### ADMISSION (R125, R126) -/

/-- Settles O29: the test of the admission condition at the moment the interval has passed admits the head, and then no
other. -/
theorem admissionTakesHead : Obligations.AdmissionTakesHead := by
  intro s c last head since interval waiting now' ends
  have exec_eq : exec .admission s = .next (s.advanceTo (last + 10 * s.cfg.zone.admissionInterval)).admitQueued := by
    change Host.Outcome.next _ = _
    rw [head, since]
  obtain ⟨rest, queued⟩ : ∃ rest, s.queue.front ++ s.queue.back = c :: rest := by
    rw [s.queue.head_eq] at head
    exact ⟨_, (List.eq_cons_of_mem_head? head).trans rfl⟩
  obtain ⟨-, admits, -⟩ := (s.advanceTo (last + 10 * s.cfg.zone.admissionInterval)).admitQueued_tested
  have admitted := admits c rest queued (fun l h => by
    obtain rfl := Option.some.inj (since.symm.trans h)
    exact Nat.le_max_right ..) (Nat.mul_pos (by decide) interval) waiting
  refine ⟨_, exec_eq, ?_, ?_, fun d ne => ?_⟩
  · rw [admitted]; rfl
  · rw [admitted, State.chan_setChan_self]; rfl
  · rw [admitted, State.chan_setChan_ne _ _ ne]; rfl

/-! ### INRUSH_TIMER_EXPIRY (R129) -/

/-- Settles O30: the entry to RUNNING in the granted mode is no switch-on. -/
theorem inrushEndsInGrantedMode : Obligations.InrushEndsInGrantedMode := by
  intro s c ends out now' p x later
  have on : x.sw.out.isOn = true := by
    have : x.sw.out = .inrush ends := out
    rw [this]; rfl
  have exec_eq : exec (.inrushTimerExpiry c) s = .next (later.enterRunning c x.sw.granted) := by
    change Host.Outcome.next _ = _
    rw [out]
    rfl
  have period (g : Staged) : later.startPeriod c g =
      later.setChan c (x.movedOn (g.running p.period now').1 (g.running p.period now').2 x.sw.allowance) := by
    rw [State.startPeriod_eq]
    exact congrArg (later.setChan c) (ChannelState.entered_on (x := x) on ..)
  refine ⟨fun granted => ?_, fun d granted => ?_, fun f granted => ?_⟩
  · rw [exec_eq, granted]
    exact congrArg Host.Outcome.next (period .steady)
  · intro on e
    rw [exec_eq, granted]
    exact congrArg Host.Outcome.next (period (.pwm d))
  · intro started runs
    rw [granted] at exec_eq
    have joined : later.enterRunning c (.flash f) = ({ later with gens := s.gens.set f (later.genJoined f) } : State).setChan c
        (x.movedOn (.flash f) (if (later.genJoined f).isOn then .current else .voltage)
          (joinAllowance p (later.genJoined f).isOn now' x.sw.allowance)) := by
      refine (State.joinPattern_eq later c f).trans ?_
      exact congrArg (State.setChan { later with gens := s.gens.set f (later.genJoined f) } c)
        (ChannelState.entered_on (x := x) on ..)
    have gens (q : Pattern) : ((s.gens.set f (later.genJoined f))[q]) = if q = f then later.genJoined f else s.gens[q] :=
      vector_set_get ..
    have lit : (later.genJoined f).isOn = true ↔ started ∨ runs := by
      rw [Generator.isOn_iff]
      unfold State.genJoined
      dsimp only
      by_cases first : s.gens[f].users = 0
      · exact ⟨fun _ => .inl first, fun _ => ⟨_, _, _, if_pos first⟩⟩
      · rw [if_neg first]
        exact ⟨.inr, fun h => h.resolve_left first⟩
    refine ⟨_, exec_eq, ?_, fun d ne => ?_, ?_, ?_, fun q ne => ?_, fun h => ?_, fun h => ?_⟩
    · rw [joined]; rfl
    · rw [joined, State.chan_setChan_ne _ _ ne]; rfl
    · rw [joined]
      exact congrArg Generator.users ((gens f).trans (if_pos rfl))
    · rw [joined]
      exact congrArg Generator.state ((gens f).trans (if_pos rfl))
    · rw [joined]
      exact (gens q).trans (if_neg ne)
    · rw [joined, State.chan_setChan_self, lit.2 h]
      unfold joinAllowance
      simp only [true_and, if_true]
      rfl
    · rw [joined, State.chan_setChan_self, Bool.eq_false_iff.2 (mt lit.1 h)]
      rfl

/-! ### PERIOD_BOUNDARY (R131, R132) -/

/-- Settles O33: the first period of the staged output. -/
theorem boundaryLoadsStaged : Obligations.BoundaryLoadsStaged := by
  intro s c staged start out period now'
  have inPeriod : (s.chan c).sw.out.isOn = true := by
    rcases out with out | ⟨d, n, out⟩ <;> rw [out] <;> rfl
  have exec_eq : exec (.periodBoundary c) s = .next (s.boundary c staged start) := by
    change Host.Outcome.next _ = _
    rcases out with out | ⟨d, n, out⟩ <;> rw [out]
  have loaded : s.boundary c staged start = ({ s with now := now' } : State).setChan c ((s.chan c).movedOn
      (staged.running period now').1 (staged.running period now').2 (s.chan c).sw.allowance) := by
    refine (State.startPeriod_eq _ c staged).trans ?_
    exact congrArg (State.setChan { s with now := now' } c) (ChannelState.entered_on (x := s.chan c) inPeriod ..)
  refine ⟨_, exec_eq, ?_, fun d ne => ?_, fun e => ?_, fun d e => ?_⟩
  · rw [loaded]; rfl
  · rw [loaded, State.chan_setChan_ne _ _ ne]; rfl
  · rw [loaded, State.chan_setChan_self, e]; rfl
  · intro on eff
    rw [loaded, State.chan_setChan_self, e]; rfl

/-! ### PHASE_TIMER_EXPIRY (R137) -/

/-- Reports of a change of phase, channel by channel (R69, R140). -/
theorem byChannel_reportPhase (s : State) :
    ByChannel State.reportPhase id
      (fun t => t = { s with chans := t.chans } ∧ ∀ c, (t.chan c).sw.out = (s.chan c).sw.out)
      fun c x => { x with sense := { x.sense with kind := s.kindFor c (s.chan c).sw.out } } where
  keeps t c ht := by
    obtain ⟨frame, out⟩ := ht
    refine ⟨by unfold State.reportPhase State.withSense; rw [frame]; rfl, fun d => ?_⟩
    unfold State.reportPhase State.withSense
    rw [State.chan_setChan]
    split
    · next e => rw [e]; exact out c
    · exact out d
  own t c ht := by
    obtain ⟨frame, out⟩ := ht
    have kind : t.kindFor c (t.chan c).sw.out = s.kindFor c (s.chan c).sw.out := by rw [out c, frame]; rfl
    unfold State.reportPhase State.withSense
    rw [id, State.chan_setChan_self, kind]
    exact congrArg (fun r => { t.chan c with sense := r }) (SenseRecord.report_phase ..)
  others t c ht d hd := State.chan_setChan_ne _ _ hd

/-- Settles O34: the reports of the end of an ON_PHASE, and the start of one. -/
theorem patternChangesPhase : Obligations.PatternChangesPhase := by
  intro s p ends onTime offTime now'
  refine ⟨fun lit => ?_, fun dark => ?_⟩
  · have exec_eq : exec (.phaseTimerExpiry p) s = .next (((s.advanceTo ends).usersOf p).foldl (fun t c => t.reportPhase c)
        ((s.advanceTo ends).setGen p ⟨s.gens[p].users, .running .off (now' + offTime) onTime offTime⟩)) := by
      change Host.Outcome.next _ = _
      rw [lit]
      rfl
    generalize hu : (s.advanceTo ends).setGen p ⟨s.gens[p].users, .running .off (now' + offTime) onTime offTime⟩ = u at exec_eq
    have chan (c : Channel) : u.chan c = s.chan c := by rw [← hu]; rfl
    have off : u.patternOn p = false := by rw [← hu, State.patternOn, State.setGen_get, if_pos rfl]; rfl
    have rows := byChannel_reportPhase u
    have start : u = { u with chans := u.chans } ∧ ∀ c, (u.chan c).sw.out = (u.chan c).sw.out := ⟨rfl, fun _ => rfl⟩
    refine ⟨_, exec_eq, ?_, fun c => ?_⟩
    · have frame := (rows.foldl_keeps ((s.advanceTo ends).usersOf p) u start).1
      rw [← hu] at frame ⊢
      exact frame
    · rw [rows.foldl_chan ((s.advanceTo ends).nodup_usersOf p) start, chan]
      by_cases uses : (s.chan c).sw.out = .flash p
      · rw [if_pos uses, if_pos (((s.advanceTo ends).mem_usersOf p c).2 uses), uses, State.kindFor, off]
        rfl
      · rw [if_neg uses, if_neg (mt ((s.advanceTo ends).mem_usersOf p c).1 uses)]
  · have exec_eq : exec (.phaseTimerExpiry p) s = .next ((s.advanceTo ends).startOnPhase p) := by
      change Host.Outcome.next _ = _
      rw [dark]
    obtain ⟨frame, gens, users, others⟩ := (s.advanceTo ends).startOnPhase_restarts p
    have same : ((s.advanceTo ends).startOnPhase p).gens = s.gens.set p ⟨s.gens[p].users, (s.advanceTo ends).latched p⟩ := by
      refine Vector.ext fun i hi => (gens ⟨i, hi⟩).trans ?_
      refine Eq.trans ?_ (vector_set_get s.gens p ⟨i, hi⟩ _).symm
      refine if_ctx_congr List.mem_singleton (fun e => ?_) fun _ => rfl
      rw [e]
      rfl
    refine ⟨_, exec_eq, ?_, fun c => ?_⟩
    · rw [same] at frame
      exact frame
    · split
      · next uses => exact users c p List.mem_cons_self uses
      · next unused => exact others c fun q hq => by rw [List.mem_singleton.1 hq]; exact unused

end Sys2Proof.Machine
end

section
/-! SUPPORT. What demand table, lines, latch and supervisor do, for relations that hold of every write of demand and
arbitration records, of every evaluation, and of what no channel holds: they hold of all of it. -/

namespace Sys2Proof.Machine

/-- A relation of states that every evaluation has, every write of demand and arbitration records, and every write of what
neither channels, queue, generators nor configuration hold. -/
structure Carries (R : State → State → Prop) : Prop where
  refl : ∀ s, R s s
  trans : ∀ {s t u}, R s t → R t u → R s u
  frame : ∀ (s : State) (lapsed graceStart scan sup lines latch faults now),
    R s { s with
      lapsed := lapsed, graceStart := graceStart, scan := scan, sup := sup, lines := lines, latch := latch
      faults := faults, now := now }
  records : ∀ (s : State) (c : Channel) (demand : DemandRecord) (arb : ArbRecord),
    R s (s.setChan c { s.chan c with demand := demand, arb := arb })
  evaluate : ∀ (s : State) (c : Channel), R s (s.evaluate c)

namespace Carries
variable {R : State → State → Prop}

theorem ite (_ : Carries R) {s a b : State} {P : Prop} [Decidable P] (ha : P → R s a) (hb : ¬P → R s b) : R s (if P then a else b) := by
  split
  · next k => exact ha k
  · next k => exact hb k

theorem foldl (h : Carries R) {α : Type} {f : State → α → State} (k : ∀ s a, R s (f s a)) : ∀ (l : List α) (s : State), R s (l.foldl f s)
  | [], s => h.refl s
  | a :: l, s => h.trans (k s a) (h.foldl k l (f s a))

variable (h : Carries R)
include h

theorem advanceTo (s : State) (t : Moment) : R s (s.advanceTo t) := h.frame s ..

theorem report (s : State) (l : List Report) : R s (s.report l) := h.frame s ..

theorem withDemand (s : State) (c : Channel) (f : DemandRecord → DemandRecord) : R s (s.withDemand c f) := h.records s c _ _

theorem withArb (s : State) (c : Channel) (f : ArbRecord → ArbRecord) : R s (s.withArb c f) := h.records s c _ _

/-! ### Evaluations -/

theorem evaluateEach (s : State) (l : List Channel) : R s (s.evaluateEach l) := h.foldl h.evaluate l s

theorem evaluateAll (s : State) : R s s.evaluateAll := h.evaluateEach s _

theorem evaluateChanged (s before : State) : R s (s.evaluateChanged before) := h.evaluateEach s _

theorem evaluateMoved (s before : State) (c : Channel) : R s (s.evaluateMoved before c) :=
  h.ite (fun _ => h.refl s) fun _ => h.evaluate s c

theorem evaluateLevel (s before : State) : R s (s.evaluateLevel before) := h.ite (fun _ => h.refl s) fun _ => h.evaluateAll s

/-! ### The supervisor -/

theorem setFloor (s : State) (src : NetSource) (f : Option Floor) : R s (s.setFloor src f) :=
  h.trans (t := ({ s with sup := { s.sup with floors := s.sup.floors.set src f } } : State).recompute) (h.frame s ..)
    (h.evaluateLevel _ _)

theorem deliverZone (s : State) (volts : Nat) : R s (s.deliverZone volts) := by
  have sampled : R s (s.zoneSampled volts) := h.frame s ..
  rw [State.deliverZone_eq]
  exact h.trans (h.trans sampled (h.evaluateLevel _ s)) (h.ite (fun _ => h.refl _) fun _ => h.evaluateAll _)

theorem feederTick (s : State) : R s (s.feederTicked.evaluateLevel s) :=
  h.trans (t := s.feederTicked) (h.frame s ..) (h.evaluateLevel _ s)

/-! ### The demand table -/

theorem takeCode (s : State) (src : NetSource) (c : Channel) (d : DemandItem) : R s (s.takeCode src c d) := by
  rw [State.takeCode_eq]
  unfold ChannelState.took
  split
  · exact h.records s c _ _
  · exact h.records s c _ _

theorem takeDemand (s : State) (src : NetSource) (g : Fin 4) (data : Vector Byte 8) : R s (s.takeDemand src g data) := by
  have cleared : R s (s.clearLapsed src) := h.ite (fun _ => h.frame s ..) fun _ => h.refl s
  refine h.trans cleared (h.ite (fun _ => ?_) fun _ => ?_)
  · exact h.foldl (fun t i => h.ite (fun _ => h.refl t) fun _ => h.withArb t _ _) _ _
  · exact h.trans (h.foldl (fun t i => h.takeCode t _ _ _) _ _) (h.evaluateChanged _ _)

theorem lapseEntry (s : State) (src : NetSource) (c : Channel) : R s (s.lapseEntry src c) := by
  rw [State.lapseEntry_eq]
  exact h.trans (t := { s with lapsed := s.lapsed.set src true }) (h.frame s ..) (h.records _ c _ _)

theorem lapseAll (s : State) (due : Moment) : R s (s.lapseAll due) :=
  h.trans (h.trans (h.foldl (fun t c => h.foldl (fun u src => h.lapseEntry u src c) _ t) _ s) (h.report _ _))
    (h.evaluateEach _ _)

theorem endGrace (s : State) : R s s.endGrace := by
  have ended : R s { s with graceStart := none } := h.frame s ..
  have entries : R s ({ s with graceStart := none } : State).graceEntries :=
    h.trans ended (h.foldl (fun t c => h.ite (fun _ => h.withDemand t c _) fun _ => h.refl t) allChannels _)
  exact h.trans entries (h.evaluateChanged _ { s with graceStart := none })

theorem removeEntries (s : State) (l : List Channel) (src : NetSource) :
    R s ((l.foldl (fun t c => t.removeEntry src c) s).evaluateChanged s) :=
  h.trans (h.foldl (fun t c => h.withDemand t c _) l s) (h.evaluateChanged _ s)

theorem recomputeLines (s : State) (concerned : Channel → Bool) : R s (s.recomputeLines concerned) :=
  h.trans (h.foldl (fun t c => h.withDemand t c _) (allChannels.filter concerned) s) (h.evaluateChanged _ s)

theorem clearLogs (s : State) (l : List Channel) : R s (s.clearLogs l) := h.foldl (fun t d => h.withArb t d _) l s

/-! ### The lines and the latch -/

theorem setLine (s : State) (l : Line) (r : LineRecord) : R s (s.setLine l r) := by cases l <;> exact h.frame s ..

theorem clearLatch (s : State) : R s s.clearLatch :=
  h.trans (t := ({ s with latch := false } : State).finish .emergency) (h.frame s ..) (h.evaluateAll _)

theorem endServiceFloor (s : State) : R s s.endServiceFloor := by
  unfold State.endServiceFloor
  split
  · exact h.refl s
  · exact h.setFloor s _ _

theorem handOn (s : State) (l : Line) (floorFirst : Bool) : R s (s.handOn l floorFirst) := by
  unfold State.handOn
  split
  · exact h.recomputeLines s _
  · refine h.ite (fun _ => ?_) fun _ => h.refl s
    exact h.trans (t := ({ s with latch := true } : State).occur .emergency) (h.frame s ..) (h.evaluateAll _)
  · refine h.ite (fun _ => h.refl s) fun _ => h.ite (fun _ => ?_) fun _ => ?_
    · exact h.trans (h.endServiceFloor s) (h.removeEntries _ _ _)
    · exact h.trans (h.removeEntries s _ _) (h.endServiceFloor _)

theorem settle (s : State) (l : Line) (floorFirst : Bool) : R s (s.settle l floorFirst) :=
  h.trans (h.setLine s l _) (h.handOn _ l floorFirst)

theorem reconsider (s : State) (l : Line) : R s (s.reconsider l) :=
  h.ite (fun _ => h.setLine s l _) fun _ => h.ite (fun _ => h.settle s l false) fun _ => h.setLine s l _

/-! ### The effects of CONFIG_WRITE and the resets -/

theorem testGrace (s : State) : R s s.testGrace := by
  unfold State.testGrace
  split
  · exact h.refl s
  · exact h.ite (fun _ => h.endGrace s) fun _ => h.refl s

theorem zoneEffect (admits : ∀ s : State, R s s.admitQueued) (s : State) (f : ZoneField) : R s (s.zoneEffect f) := by
  cases f with
  | lv1 => exact h.frame s ..
  | lv2 => exact h.frame s ..
  | lv3 => exact h.frame s ..
  | admissionInterval => exact admits s
  | startGrace => exact h.testGrace s
  | _ => exact h.refl s

theorem testDebounce (s : State) (i : Fin 4) : R s (s.testDebounce i) := by
  unfold State.testDebounce
  split
  · exact h.refl s
  · exact h.ite (fun _ => h.settle s _ _) fun _ => h.refl s

theorem lineEffect (s : State) (i : Fin 4) (f : LineField) (old : LineSettings) : R s (s.lineEffect i f old) := by
  cases f with
  | polarity => exact h.reconsider s _
  | debounce => exact h.testDebounce s i
  | mask => exact h.recomputeLines s _
  | command => exact h.recomputeLines s _

/-- The report of a rejected image, and a start grace of 0, after a reset (R18, R38). -/
theorem afterLoad (s : State) : R s s.reportLoad.startGraceAtReset :=
  h.trans (h.ite (fun _ => h.refl s) fun _ => h.frame s ..) (h.ite (fun _ => h.endGrace _) fun _ => h.refl _)

end Carries

/-! ### A fuse tick in its steps (R80) -/

/-- The moment of a fuse tick, and the tick recorded. -/
def State.fuseTicked (s : State) (c : Channel) : State :=
  (s.advanceTo ((s.chan c).prot.lastTick + 10)).withProt c fun r =>
    { r with lastTick := max s.now ((s.chan c).prot.lastTick + 10) }

/-- The comparison and the update of H at a fuse tick of a state whose tick is recorded. -/
def State.fuseCompared (s : State) (c : Channel) : State :=
  (s.compareLevels c).withProt c fun r => { r with heat := heatStep (s.profile c).decayShift (s.powerOf c) r.heat }

theorem exec_fuseTick (s : State) (c : Channel) :
    exec (.fuseTick c) s = .next (((s.fuseTicked c).fuseCompared c).evaluateMoved (s.fuseTicked c) c) := rfl

/-! ### The events of demand table, lines and supervisor -/

/-- DEMAND frames and the events of demand table, lines and supervisor. -/
def Instr.isTable : Instr → Bool
  | .demand _ _ => true
  | .pulseTimerExpiry _ _ => true
  | .lapse _ _ => true
  | .startGraceEnd => true
  | .feederFuseTick => true
  | .floorExpiry _ => true
  | .lineLevelChange _ _ => true
  | .debounceExpiry _ _ => true
  | _ => false

theorem Carries.table {R : State → State → Prop} (h : Carries R) {i : Instr} (hi : Instr.isTable i = true) (s : State) :
    ∃ t, exec i s = .next t ∧ R s t := by
  have late {m : Moment} {t : State} (k : R (s.advanceTo m) t) : R s t := h.trans (h.advanceTo s m) k
  cases i with
  | demand rx data =>
    refine ⟨_, rfl, ?_⟩
    split <;> [exact h.refl s; exact h.takeDemand s _ _ _]
  | pulseTimerExpiry src c =>
    refine ⟨_, rfl, ?_⟩
    split <;> [exact late (h.trans (h.withDemand _ c _) (h.evaluate _ c)); exact h.refl s]
  | lapse src c =>
    refine ⟨_, rfl, ?_⟩
    split <;> [exact late (h.lapseAll _ _); exact h.refl s]
  | startGraceEnd =>
    refine ⟨_, rfl, ?_⟩
    split <;> [exact late (h.endGrace _); exact h.refl s]
  | feederFuseTick => exact ⟨_, exec_feederFuseTick s, h.feederTick s⟩
  | floorExpiry src =>
    refine ⟨_, rfl, ?_⟩
    split <;> [exact late (h.setFloor _ src none); exact h.refl s]
  | lineLevelChange l high =>
    exact ⟨_, rfl, h.ite (fun _ => h.refl s) fun _ => h.trans (h.setLine s l _) (h.reconsider _ l)⟩
  | debounceExpiry l floorFirst =>
    refine ⟨_, rfl, ?_⟩
    split <;> [exact late (h.settle _ l floorFirst); exact h.refl s]
  | _ => cases hi

end Sys2Proof.Machine
end

section
/-! SUPPORT. Every step keeps the protection records in order (R85, R106, R107, R112 to R114): the moves of an output first,
then what the protection unit, the configuration and the resets write. -/

namespace Sys2Proof.Machine

/-! ### One channel -/

/-- A protection record in order, beside an output state and under a retry limit. -/
def ProtRecord.Ok (r : ProtRecord) (out : OutState) (limit : Nat) : Prop :=
  r.heat ≤ heatMax ∧ r.retries ≤ limit ∧ (r.stableRun ≠ none → out.isOn = true) ∧ (r.offWait = .cleared ↔ out ≠ .off)
    ∧ r.onCount ≤ 50 ∧ r.offCount ≤ 10

/-- The protection record of a channel in order. -/
def ChannelState.ProtOk (x : ChannelState) (limit : Nat) : Prop := x.prot.Ok x.sw.out limit

theorem State.protOk_iff (s : State) (c : Channel) : s.ProtOk c ↔ (s.chan c).ProtOk (s.profile c).retryLimit := Iff.rfl

theorem ChannelState.ProtOk.entered {x : ChannelState} {limit : Nat} (h : x.ProtOk limit) (now : Moment) {out : OutState}
    (on : out.isOn = true) (kind : SampleKind) (allowance : Option Moment) : (x.entered now out kind allowance).ProtOk limit := by
  obtain ⟨heat, retries, stable, wait, onCount, offCount⟩ := h
  have ne := OutState.ne_off_of_isOn on
  unfold ChannelState.entered
  split
  · next was =>
    exact ⟨heat, retries, fun _ => on, iff_of_true (wait.2 (OutState.ne_off_of_isOn was)) ne, onCount, offCount⟩
  · exact ⟨heat, retries, fun _ => on, iff_of_true rfl ne, Nat.zero_le _, Nat.zero_le _⟩

theorem ChannelState.ProtOk.queued {x : ChannelState} {limit : Nat} (h : x.ProtOk limit) (off : x.sw.out = .off) :
    x.queued.ProtOk limit := by
  obtain ⟨heat, retries, stable, -, onCount, -⟩ := h
  refine ⟨heat, retries, fun run => ?_, iff_of_true rfl nofun, onCount, Nat.zero_le _⟩
  have on := stable run
  rw [off] at on
  cases on

theorem ChannelState.ProtOk.switchedOff {x : ChannelState} {limit : Nat} (h : x.ProtOk limit) (now : Moment) :
    (x.switchedOff now).ProtOk limit := by
  obtain ⟨heat, retries, -, -, onCount, offCount⟩ := h
  exact ⟨heat, retries, fun run => absurd rfl run, iff_of_false nofun fun ne => ne rfl, onCount, offCount⟩

/-! ### Updates of the state -/

/-- An update that keeps every protection record in order. -/
structure Protects (s t : State) : Prop where
  protectionOk : s.ProtectionOk → t.ProtectionOk

theorem Protects.refl (s : State) : Protects s s := ⟨id⟩

theorem Protects.trans {s t u : State} (h : Protects s t) (k : Protects t u) : Protects s u :=
  ⟨k.protectionOk ∘ h.protectionOk⟩

theorem Protects.ite {s a b : State} {P : Prop} [Decidable P] (ha : P → Protects s a) (hb : ¬P → Protects s b) :
    Protects s (if P then a else b) := by
  split
  · next h => exact ha h
  · next h => exact hb h

theorem Protects.foldl {α : Type} {f : State → α → State} (h : ∀ s a, Protects s (f s a)) :
    ∀ (l : List α) (s : State), Protects s (l.foldl f s)
  | [], s => .refl s
  | a :: l, s => (h s a).trans (Protects.foldl h l (f s a))

theorem protects_setChan {s : State} {c : Channel} {x : ChannelState}
    (h : (s.chan c).ProtOk (s.profile c).retryLimit → x.ProtOk (s.profile c).retryLimit) : Protects s (s.setChan c x) :=
  ⟨fun ok d => by
    rw [State.protOk_iff, State.setChan_profile, State.chan_setChan]
    split
    · next e => rw [e]; exact h (ok c)
    · exact ok d⟩

/-- What no protection record is read with. -/
theorem protects_frame (s : State) (image store lapsed graceStart scan queue gens sup lines latch faults now) :
    Protects s { s with
      image := image, store := store, lapsed := lapsed, graceStart := graceStart, scan := scan, queue := queue,
      gens := gens, sup := sup, lines := lines, latch := latch, faults := faults, now := now } := ⟨id⟩

/-! ### The moves of an output -/

theorem protects_enterInrush (s : State) (c : Channel) : Protects s (s.enterInrush c) := by
  rw [State.enterInrush_eq]
  exact protects_setChan fun ok => ok.entered _ rfl _ _

theorem protects_startPeriod (s : State) (c : Channel) (g : Staged) : Protects s (s.startPeriod c g) := by
  rw [State.startPeriod_eq]
  exact protects_setChan fun ok => ok.entered _ (by cases g <;> rfl) _ _

theorem protects_joinPattern (s : State) (c : Channel) (f : Pattern) : Protects s (s.joinPattern c f) := by
  rw [State.joinPattern_eq]
  exact (protects_frame s (gens := s.gens.set f (s.genJoined f)) ..).trans (protects_setChan fun ok => ok.entered _ rfl _ _)

theorem protects_admitUpTo : ∀ (n : Nat) (s : State), Protects s (s.admitUpTo n)
  | 0, s => .refl s
  | n + 1, s => by
    refine .ite (fun due => .trans ?_ (protects_admitUpTo n _)) fun _ => .refl s
    obtain ⟨⟨c, head⟩, -⟩ := s.admissionDue_iff.1 due
    unfold State.admitHead
    rw [head]
    exact .trans (t := { s with queue := { s.queue.remove c with lastAdmission := some s.now } }) (protects_frame s ..)
      (protects_enterInrush _ c)

theorem protects_admitQueued (s : State) : Protects s s.admitQueued := protects_admitUpTo _ s

theorem protects_setOut_off {s : State} {c : Channel} (ne : (s.chan c).sw.out ≠ .off) :
    Protects s ((s.setOut c .off).dropAllowance c) := by
  rw [State.setOut_off ne]
  exact protects_setChan fun ok => ok.switchedOff _

theorem protects_turnOff (s : State) (c : Channel) : Protects s (s.turnOff c) := by
  cases e : (s.chan c).sw.out with
  | off => unfold State.turnOff; rw [e]; exact .refl s
  | waiting =>
    rw [State.turnOff_waiting e]
    refine .trans (t := s.unqueue c) (protects_frame s ..) ((protects_setOut_off ?_).trans (protects_admitQueued _))
    exact fun off => absurd (e.symm.trans off) nofun
  | flash f =>
    rw [State.turnOff_flash e]
    refine .trans (t := s.leavePattern f) (protects_frame s ..) (protects_setOut_off ?_)
    exact fun off => absurd (e.symm.trans off) nofun
  | _ =>
    rw [State.turnOff_on (by rw [e]; rfl) (by rw [e]; nofun)]
    exact protects_setOut_off (by rw [e]; nofun)

theorem protects_setOut_waiting {s : State} {c : Channel} (off : (s.chan c).sw.out = .off) : Protects s (s.setOut c .waiting) := by
  rw [State.setOut_waiting off]
  exact protects_setChan fun ok => ok.queued off

theorem protects_joinQueue {s : State} {c : Channel} (off : (s.chan c).sw.out = .off) : Protects s (s.joinQueue c) := by
  have joined := protects_setOut_waiting (s := { s with queue := s.queue.join c (s.chan c).sw.cls }) off
  exact .trans (t := { s with queue := s.queue.join c (s.chan c).sw.cls }) (protects_frame s ..)
    (joined.trans (protects_admitQueued _))

theorem protects_regroup (s : State) (c : Channel) : Protects s (s.regroup c) :=
  .ite (fun _ => .refl s) fun _ => .trans (t := { s with queue := (s.queue.remove c).join c (s.chan c).sw.cls })
    (protects_frame s ..) (.ite (fun _ => .refl _) fun _ => protects_admitQueued _)

theorem protects_enterRunning (s : State) (c : Channel) (g : Granted) : Protects s (s.enterRunning c g) := by
  cases g with
  | off => exact protects_turnOff s c
  | steady => exact protects_startPeriod s c .steady
  | pwm d => exact protects_startPeriod s c (.pwm d)
  | flash f => exact protects_joinPattern s c f

theorem protects_leaveOff {s : State} {c : Channel} (off : (s.chan c).sw.out = .off) (g : Granted) :
    Protects s (s.leaveOff c g) := by
  unfold State.leaveOff
  split
  · exact protects_joinPattern s c _
  · refine .ite (fun _ => .ite (fun _ => protects_joinQueue off) fun _ => ?_)
      fun _ => .ite (fun _ => protects_enterInrush s c) fun _ => protects_enterRunning s c _
    exact .trans (t := { s with queue := { s.queue with lastAdmission := some s.now } }) (protects_frame s ..)
      (protects_enterInrush _ c)

theorem protects_leaveFlash (s : State) (c : Channel) (f : Pattern) (g : Granted) : Protects s (s.leaveFlash c f g) :=
  .trans (t := s.leavePattern f) (protects_frame s ..)
    (.ite (fun _ => protects_enterInrush _ c) fun _ => protects_enterRunning _ c g)

/-- A staged output is none of the output states that the protection unit tells apart. -/
theorem protects_stage {s : State} {c : Channel} {o : OutState} (e : (s.chan c).sw.out = o) (g : Staged) :
    Protects s (s.withSwitch c fun w => { w with out := o.stage g }) := by
  refine protects_setChan fun ok => ?_
  obtain ⟨heat, retries, stable, wait, counts⟩ := ok
  rw [e] at stable wait
  refine ⟨heat, retries, fun run => ?_, wait.trans ?_, counts⟩
  · cases o <;> exact stable run
  · cases o <;> simp [OutState.stage]

theorem protects_actOn (s : State) (c : Channel) (g : Granted) : Protects s (s.actOn c g) := by
  unfold State.actOn
  split
  · exact .refl s
  · next off _ => exact protects_leaveOff off _
  · exact protects_turnOff s c
  · exact .trans (t := s.unqueue c) (protects_frame s ..) ((protects_joinPattern _ c _).trans (protects_admitQueued _))
  · exact protects_regroup s c
  · exact .refl s
  · exact .ite (fun _ => .refl s) fun _ => .trans (t := s.leavePattern _) (protects_frame s ..) (protects_joinPattern _ c _)
  · exact protects_leaveFlash s c _ _
  · exact protects_joinPattern s c _
  · exact protects_stage rfl .steady
  · exact protects_stage rfl (.pwm _)

/-! ### Evaluations (R47, R48) -/

/-- A write of a channel that keeps protection record and output state. -/
theorem protects_setChan_same (s : State) {c : Channel} {x : ChannelState} (prot : x.prot = (s.chan c).prot)
    (out : x.sw.out = (s.chan c).sw.out) : Protects s (s.setChan c x) :=
  protects_setChan fun ok => by unfold ChannelState.ProtOk; rw [prot, out]; exact ok

theorem protects_evaluate (s : State) (c : Channel) : Protects s (s.evaluate c) := by
  have judged : Protects s (s.recordJudgement c) := by
    unfold State.recordJudgement
    exact protects_setChan_same s rfl rfl
  refine judged.trans (.ite (fun _ => .refl _) fun _ => ?_)
  rw [State.handOver_eq]
  refine .trans (t := (s.recordJudgement c).recorded c _ _) ?_ (protects_actOn _ c _)
  exact protects_setChan_same _ rfl rfl

/-- Demand table, lines, latch and supervisor keep the protection records in order. -/
theorem carries_protects : Carries Protects where
  refl := .refl
  trans := .trans
  frame s _ _ _ _ _ _ _ _ := protects_frame s ..
  records s _ _ _ := protects_setChan_same s rfl rfl
  evaluate := protects_evaluate

theorem protects_withSense (s : State) (c : Channel) (f : SenseRecord → SenseRecord) : Protects s (s.withSense c f) := by
  unfold State.withSense
  exact protects_setChan_same s rfl rfl

/-! ### The protection unit -/

/-- A protection record written. -/
theorem protects_withProt {s : State} {c : Channel} {f : ProtRecord → ProtRecord}
    (h : ∀ out, (s.chan c).prot.Ok out (s.profile c).retryLimit → (f (s.chan c).prot).Ok out (s.profile c).retryLimit) :
    Protects s (s.withProt c f) := by
  unfold State.withProt
  exact protects_setChan fun ok => h _ ok

theorem protects_trip (s : State) (c : Channel) (k : TripKind) : Protects s (s.trip c k) := by
  have tripped (state : ProtState) : Protects s (s.withProt c fun r => { r with state := state, stableRun := none }) :=
    protects_withProt fun _ ⟨heat, retries, _, rest⟩ => ⟨heat, retries, fun run => absurd rfl run, rest⟩
  exact .ite (fun _ => (tripped _).trans (carries_protects.report _ _)) fun _ => (tripped _).trans (carries_protects.report _ _)

theorem protects_exitTrip (s : State) (c : Channel) : Protects s (s.exitTrip c) := by
  unfold State.exitTrip
  refine protects_withProt fun out ok => ?_
  obtain ⟨heat, retries, rest⟩ := ok
  refine ⟨heat, ?_, rest⟩
  dsimp only
  split <;> omega

theorem protects_compareLevels (s : State) (c : Channel) : Protects s (s.compareLevels c) := by
  have moved (state : ProtState) : Protects s (s.withProt c fun r => { r with state := state }) := protects_withProt fun _ => id
  unfold State.compareLevels
  dsimp only
  split
  · exact .ite (fun _ => protects_trip s c _) fun _ => .ite (fun _ => moved _) fun _ => .refl s
  · exact .ite (fun _ => protects_trip s c _) fun _ => .ite (fun _ => moved _) fun _ => .refl s
  · exact .ite (fun _ => protects_exitTrip s c) fun _ => .refl s
  · exact .ite (fun _ => protects_exitTrip s c) fun _ => .refl s
  · exact .refl s
  · exact .refl s

theorem protects_fuseTick (s : State) (c : Channel) : ∃ t, exec (.fuseTick c) s = .next t ∧ Protects s t := by
  have heated (t : State) (f : Nat → Nat) (h : ∀ n, f n ≤ heatMax) :
      Protects t (t.withProt c fun r => { r with heat := f r.heat }) :=
    protects_withProt fun _ ⟨_, rest⟩ => ⟨h _, rest⟩
  have ticked (t : State) (m : Moment) : Protects t (t.withProt c fun r => { r with lastTick := m }) :=
    protects_withProt fun _ => id
  have ticked : Protects s (s.fuseTicked c) := (carries_protects.advanceTo s _).trans (ticked _ _)
  have compared (t : State) : Protects t (t.fuseCompared c) :=
    (protects_compareLevels t c).trans (heated _ (fun n => heatStep _ _ n) fun _ => heatStep_le ..)
  exact ⟨_, exec_fuseTick s c, (ticked.trans (compared _)).trans (carries_protects.evaluateMoved _ _ c)⟩

theorem protects_endOpenLoadOn (s : State) (c : Channel) : Protects s (s.endOpenLoadOn c) :=
  .ite (fun _ => .trans (t := s.withProt c fun r => { r with openLoadOn := false }) (protects_withProt fun _ => id)
    (protects_frame _ ..)) fun _ => .refl s

theorem protects_checkOnState (s : State) (c : Channel) (current : Nat) : Protects s (s.checkOnState c current) := by
  have counted (n : Nat) (h : n ≤ 50) : Protects s (s.withProt c fun r => { r with onCount := n }) :=
    protects_withProt fun _ ⟨heat, retries, stable, wait, _, offCount⟩ => ⟨heat, retries, stable, wait, h, offCount⟩
  have begun (t : State) : Protects t ((t.withProt c fun r => { r with openLoadOn := true }).occur (.openLoadOn c)) :=
    .trans (t := t.withProt c fun r => { r with openLoadOn := true }) (protects_withProt fun _ => id) (protects_frame _ ..)
  unfold State.checkOnState
  refine .ite (fun _ => .ite (fun _ => protects_endOpenLoadOn s c) fun _ => .ite (fun _ => ?_) fun _ => ?_) fun _ => .refl s
  · exact (counted _ (Nat.min_le_left ..)).trans (.ite (fun _ => begun _) fun _ => .refl _)
  · exact (counted 0 (Nat.zero_le _)).trans (protects_endOpenLoadOn _ c)

theorem protects_deliverCurrent (s : State) (c : Channel) (current : Nat) (saturated : Bool) :
    Protects s (s.deliverCurrent c current saturated) :=
  .ite (fun _ => .ite (fun _ => (protects_trip s c _).trans (protects_evaluate _ c)) fun _ => protects_checkOnState s c _)
    fun _ => .refl s

theorem countCheck_le (n : Nat) (meets : Bool) : countCheck n meets ≤ 10 := by
  unfold countCheck
  split <;> omega

theorem protects_deliverVoltage (s : State) (c : Channel) (wasOff : Bool) (voltage supply : Nat) :
    Protects s (s.deliverVoltage c wasOff voltage supply) := by
  have flag (t : State) {f : ProtRecord → ProtRecord} (same : ∀ r out limit, ProtRecord.Ok r out limit → (f r).Ok out limit)
      (l : List Report) : Protects t ((t.withProt c f).report l) :=
    (protects_withProt fun _ => same _ _ _).trans (carries_protects.report _ l)
  have counted (t : State) (n : Nat) (h : n ≤ 10) : Protects t (t.withProt c fun r => { r with offCount := n }) :=
    protects_withProt fun _ ⟨heat, retries, stable, wait, onCount, _⟩ => ⟨heat, retries, stable, wait, onCount, h⟩
  have ended (t : State) (half eight : Bool) : Protects t (t.endOffState c half eight) :=
    .trans (.ite (fun _ => flag t (f := fun r => { r with openLoadOff := false }) (fun _ _ _ => id) [.finish (.openLoadOff c)])
        fun _ => .refl t)
      (.ite (fun _ => flag _ (f := fun r => { r with shortToSupply := false }) (fun _ _ _ => id) [.finish (.shortToSupply c)])
        fun _ => .refl _)
  refine .ite (fun _ => ?_) fun _ => .refl s
  refine ((counted s _ (countCheck_le ..)).trans (.ite (fun _ => .ite (fun _ => ?_) fun _ => ?_) fun _ => .refl _)).trans
    (ended _ _ _)
  · exact .ite (fun _ => .refl _) fun _ => flag _ (f := fun r => { r with openLoadOff := true }) (fun _ _ _ => id) [.occur (.openLoadOff c)]
  · exact .ite (fun _ => .refl _) fun _ => flag _ (f := fun r => { r with shortToSupply := true }) (fun _ _ _ => id) [.occur (.shortToSupply c)]

theorem protects_clearProtection (s : State) (c : Channel) : Protects s (s.clearProtection c) := by
  rw [State.clearProtection_eq]
  refine .trans (t := { s with faults := _ }) (protects_frame s ..) (protects_setChan fun ok => ?_)
  obtain ⟨heat, -, rest⟩ := ok
  exact ⟨heat, Nat.zero_le _, rest⟩

theorem protects_clear (s : State) (selector : Nat) (src : NetSource) : Protects s (State.clear selector src s).state := by
  unfold State.clear
  split
  · unfold State.clearOne
    split
    · exact (protects_clearProtection s _).trans (carries_protects.evaluateMoved _ _ _)
    · exact .refl s
  · split
    · exact (Protects.foldl protects_clearProtection _ s).trans (carries_protects.evaluateEach _ _)
    · exact .refl s

/-! ### CONFIG_WRITE (R4) -/

/-- A configuration with the same retry limits. -/
theorem protects_cfg (s : State) (g : WorkingConfig)
    (h : ∀ c : Channel, g.profile[c].retryLimit = s.cfg.profile[c].retryLimit) : Protects s { s with cfg := g } :=
  ⟨fun ok c => by
    have own := ok c
    unfold State.ProtOk State.profile at own ⊢
    rw [← h c] at own
    exact own⟩

theorem Profile.set_retryLimit (p : Profile) (f : ProfileField) (v : Nat) (h : f ≠ .retryLimit) :
    (p.set f v).retryLimit = p.retryLimit := by
  cases f with
  | retryLimit => exact absurd rfl h
  | _ => rfl

/-- A profile write and its effect (R4): the counter within the new limit, and counts and wait restarted in OFF. -/
theorem protects_profileWrite {s : State} {c : Channel} (off : (s.chan c).sw.out = .off) (f : ProfileField) (v : Nat) :
    Protects s (({ s with cfg := s.cfg.write (.profile c f) v } : State).profileEffect c f) := by
  have kept (h : f ≠ .retryLimit) : Protects s { s with cfg := s.cfg.write (.profile c f) v } :=
    protects_cfg s _ fun d => by
      rw [WorkingConfig.profile_write]
      split
      · next e => rw [Profile.set_retryLimit _ _ _ h, e]
      · rfl
  have restarted (t : State) (out : (t.chan c).sw.out = .off) :
      Protects t (t.withProt c fun r => { r with onCount := 0, offCount := 0, offWait := .since t.now }) := by
    unfold State.withProt
    refine protects_setChan fun ok => ?_
    obtain ⟨heat, retries, stable, -, -, -⟩ := ok
    exact ⟨heat, retries, stable, iff_of_false nofun fun ne => ne out, Nat.zero_le _, Nat.zero_le _⟩
  cases f with
  | retryLimit =>
    refine ⟨fun ok d => ?_⟩
    by_cases e : d = c
    · subst e
      obtain ⟨heat, -, rest⟩ := ok d
      unfold State.ProtOk State.profileEffect
      rw [State.withProt_chan_self]
      exact ⟨heat, Nat.min_le_right .., rest⟩
    · have own := ok d
      have profile : (s.cfg.write (.profile c .retryLimit) v).profile[d] = s.cfg.profile[d] := by
        rw [WorkingConfig.profile_write, if_neg e]
      unfold State.ProtOk State.profile at own ⊢
      rw [← profile] at own
      unfold State.profileEffect State.withProt
      rw [State.chan_setChan_ne _ _ e]
      exact own
  | openLoad => exact (kept nofun).trans (restarted _ off)
  | pullUp => exact (kept nofun).trans (restarted _ off)
  | _ => exact kept nofun

theorem protects_applyWrite {s : State} {n : ConfigField} (may : s.mayWrite n = true) (v : Nat) : Protects s (s.applyWrite n v) := by
  refine .ite (fun _ => ?_) fun _ => ?_
  · cases n with
    | profile c f => exact protects_evaluate s c
    | _ => exact .refl s
  · cases n with
    | profile c f =>
      have off : (s.chan c).sw.out = .off := of_decide_eq_true (Bool.and_eq_true_iff.1 may).1
      exact (protects_profileWrite off f v).trans (protects_evaluate _ c)
    | zone f => exact (protects_cfg s (s.cfg.write (.zone f) v) fun _ => rfl).trans (carries_protects.zoneEffect protects_admitQueued _ f)
    | lapse src => exact protects_cfg s _ fun _ => rfl
    | pattern p f => exact protects_cfg s _ fun _ => rfl
    | line i f => exact (protects_cfg s (s.cfg.write (.line i f) v) fun _ => rfl).trans (carries_protects.lineEffect _ i f _)

/-! ### The resets (R94, R118) -/

theorem ProtRecord.afterReset_ok {r : ProtRecord} (heat : r.heat ≤ heatMax) {g : WorkingConfig} (valid : g.valid = true)
    (c : Channel) (cause : ResetCause) (t : Moment) : (r.afterReset cause g.profile[c] t).Ok .off g.profile[c].retryLimit := by
  have wait {w : OffWait} (h : w = .since t) : w = .cleared ↔ OutState.off ≠ .off := by
    subst h
    exact iff_of_false nofun fun ne => ne rfl
  cases cause with
  | powerOn => exact ⟨Nat.zero_le _, Nat.zero_le _, fun run => absurd rfl run, wait rfl, Nat.zero_le _, Nat.zero_le _⟩
  | supplyDip =>
    exact ⟨Profile.warmLevel_le valid c, Nat.zero_le _, fun run => absurd rfl run, wait rfl, Nat.zero_le _, Nat.zero_le _⟩
  | external => exact ⟨heat, Nat.min_le_right .., fun run => absurd rfl run, wait rfl, Nat.zero_le _, Nat.zero_le _⟩

/-- The part as a reset of a kind sets it, before the report of a rejected image and the end of a start grace of 0. -/
def State.resetTo (s : State) (cause : ResetCause) (pins : ResetPins) : State where
  cfg := s.imageAfterReset.load
  image := s.imageAfterReset
  store := .idle
  resetCause := cause
  chans := Vector.ofFn fun c =>
    { ChannelState.atReset s.now with prot := (s.chan c).prot.afterReset cause s.imageAfterReset.load.profile[c] s.now }
  lapsed := PerSource.const false
  graceStart := some s.now
  scan := ⟨0, 0, s.now⟩
  queue := ⟨[], [], none⟩
  gens := Vector.replicate 4 ⟨0, .stopped⟩
  sup := s.sup.afterReset cause s.imageAfterReset.load.zone s.now
  lines := linesAfterReset pins s.imageAfterReset.load s.now
  latch := decide (cause = .external) && s.latch
  faults := s.faultsAfterReset cause
  portA := PortRecord.atReset s.now
  portB := PortRecord.atReset s.now
  heldStore := none
  heldCommand := none
  zoneAddress := pins.straps.val
  now := s.now
  pending := s.pending

theorem State.afterReset_eq (s : State) (cause : ResetCause) (pins : ResetPins) :
    s.afterReset cause pins = (s.resetTo cause pins).reportLoad.startGraceAtReset := rfl

theorem State.resetTo_chan (s : State) (cause : ResetCause) (pins : ResetPins) (c : Channel) :
    (s.resetTo cause pins).chan c = { ChannelState.atReset s.now with
      prot := (s.chan c).prot.afterReset cause s.imageAfterReset.load.profile[c] s.now } := Vector.getElem_ofFn ..

theorem protects_afterReset (s : State) (cause : ResetCause) (pins : ResetPins) : Protects s (s.afterReset cause pins) := by
  refine .trans (t := s.resetTo cause pins) ⟨fun ok c => ?_⟩ (carries_protects.afterLoad _)
  rw [State.protOk_iff, State.resetTo_chan]
  exact ProtRecord.afterReset_ok (ok c).1 (StoredImage.load_valid _) c cause s.now

/-! ### Every command -/

theorem protects_startOnPhase (s : State) (p : Pattern) : Protects s (s.startOnPhase p) := by
  have allowed (t : State) (d : Channel) : Protects t (t.phaseAllowance d) :=
    .ite (fun _ => by unfold State.startAllowance State.withSwitch; exact protects_setChan_same t rfl rfl) fun _ => .refl t
  exact (protects_frame s ..).trans (.foldl (fun t d => (protects_withSense t d _).trans (allowed _ d)) _ _)

theorem protects_flashSync (s : State) (mask : Nat) (src : NetSource) : Protects s (State.flashSync mask src s).state := by
  unfold State.flashSync
  split
  · exact .refl s
  · exact .foldl protects_startOnPhase _ s

theorem Aside.protects {s t : State} (h : Aside s t) : Protects s t := by
  rw [h]
  exact ⟨id⟩

theorem protectionOk_owners : KeptByOwners State.ProtectionOk where
  aside h := h.protects.protectionOk
  remove s l src := (carries_protects.removeEntries s l src).protectionOk
  clear s selector src := (protects_clear s selector src).protectionOk
  latch s := (carries_protects.clearLatch s).protectionOk
  floor s src f := (carries_protects.setFloor s src f).protectionOk
  sync s mask src := (protects_flashSync s mask src).protectionOk
  logs s l := (carries_protects.clearLogs s l).protectionOk
  write _ _ v _ may := (protects_applyWrite may v).protectionOk

theorem protects_deliver (r s : State) (d : Delivery) : Protects s (r.deliver s d) := by
  unfold State.deliver
  split
  · exact carries_protects.deliverZone s _
  · dsimp only
    split
    · exact protects_deliverCurrent s _ _ _
    · exact protects_deliverVoltage s ..
    · exact .refl s

/-- The events of timers, samples, lines and resets, and the DEMAND frames, keep the protection records in order. -/
theorem protects_event {i : Instr} (s : State) (event : ((commandHeader i).isSome || Instr.isAside i) = false) :
    ∃ t, exec i s = .next t ∧ Protects s t := by
  by_cases table : Instr.isTable i = true
  · exact carries_protects.table table s
  have other : ((commandHeader i).isSome || Instr.isAside i || Instr.isTable i) = false := by
    rw [event, Bool.false_or]
    exact Bool.eq_false_iff.2 table
  have late (m : Moment) : Protects s (s.advanceTo m) := protects_frame s ..
  cases i with
  | powerOn pins => exact ⟨_, rfl, protects_afterReset s _ pins⟩
  | supplyDip pins => exact ⟨_, rfl, protects_afterReset s _ pins⟩
  | external pins => exact ⟨_, rfl, protects_afterReset s _ pins⟩
  | admission =>
    refine ⟨_, rfl, ?_⟩
    split <;> [exact .refl s; exact protects_admitQueued s; exact (late _).trans (protects_admitQueued _)]
  | inrushTimerExpiry c =>
    refine ⟨_, rfl, ?_⟩
    split <;> [exact (late _).trans (protects_enterRunning _ c _); exact .refl s]
  | allowanceTimerExpiry c =>
    refine ⟨_, rfl, ?_⟩
    split
    · next ends _ =>
      refine (late ends).trans ?_
      unfold State.dropAllowance State.withSwitch
      exact protects_setChan_same _ rfl rfl
    · exact .refl s
  | periodBoundary c =>
    have boundary (g start) : Protects s (s.boundary c g start) := (late _).trans (protects_startPeriod _ c g)
    refine ⟨_, rfl, ?_⟩
    split <;> [exact boundary _ _; exact boundary _ _; exact .refl s]
  | phaseTimerExpiry p =>
    refine ⟨_, rfl, ?_⟩
    split
    · exact .refl s
    · exact (late _).trans (protects_startOnPhase _ p)
    · exact (protects_frame s ..).trans (.foldl (fun t d => protects_withSense t d _) _ _)
  | scan m order =>
    have recorded (t : State) : Protects t (t.recordScan m) :=
      (protects_frame t ..).trans (.foldl (fun u d => protects_withSense u d _) _ _)
    exact ⟨_, rfl, ((late _).trans (recorded _)).trans (.foldl (protects_deliver _) _ _)⟩
  | pwmMidpoint c milliamps =>
    refine ⟨_, rfl, ?_⟩
    split
    · exact ((late _).trans (protects_withSense _ c _)).trans (protects_deliverCurrent _ c _ _)
    · exact .refl s
  | offTimeWaitComplete c =>
    refine ⟨_, rfl, ?_⟩
    split
    · next start waits =>
      refine (late _).trans (protects_withProt fun out ok => ?_)
      obtain ⟨heat, retries, stable, wait, counts⟩ := ok
      exact ⟨heat, retries, stable, iff_of_false nofun fun ne => absurd (waits.symm.trans (wait.2 ne)) nofun, counts⟩
    · exact .refl s
    · exact .refl s
  | fuseTick c => exact protects_fuseTick s c
  | retryDelayExpiry c =>
    refine ⟨_, rfl, ?_⟩
    split <;> [exact (late _).trans (protects_withProt fun _ => id); exact .refl s]
  | stableRunExpiry c =>
    refine ⟨_, rfl, ?_⟩
    split
    · refine (late _).trans (protects_withProt fun out ok => ?_)
      obtain ⟨heat, -, -, rest⟩ := ok
      exact ⟨heat, Nat.zero_le _, fun run => absurd rfl run, rest⟩
    · exact .refl s
  | _ => cases other

/-- Settles O9: every move of an output, every write of a protection record and every reset keeps the records in order. -/
theorem protectionStaysInOrder : Obligations.ProtectionStaysInOrder := fun _ _ =>
  protectionOk_owners.step (fun _ _ => id) fun _ s event ok =>
    let ⟨t, e, h⟩ := protects_event s event
    ⟨t, e, h.protectionOk ok⟩

end Sys2Proof.Machine
end

section
/-! SUPPORT. Outputs in order (R69, R119, R124, R136), as predicates of the queue, the pattern generators and one channel, and
what a move of one channel must bring to keep them. -/

namespace Sys2Proof.Machine

/-! ### The queue (R124) -/

/-- The place of a switch record in the queue: the front group or the back group of the waiting, and none of the rest. -/
def SwitchRecord.place (w : SwitchRecord) : Option Bool := if w.out = .waiting then some (inFrontGroup w.cls) else none

/-- The queue holds each channel that has a place once, in its group, and no other. -/
def SwitchQueue.Ok (q : SwitchQueue) (place : Channel → Option Bool) : Prop :=
  (q.front ++ q.back).Nodup ∧ ∀ c, (c ∈ q.front ↔ place c = some true) ∧ (c ∈ q.back ↔ place c = some false)

/-- The places of all channels. -/
def State.place (s : State) (c : Channel) : Option Bool := (s.chan c).sw.place

theorem SwitchRecord.place_eq_some_iff (w : SwitchRecord) (b : Bool) :
    w.place = some b ↔ w.out = .waiting ∧ inFrontGroup w.cls = b := by
  unfold SwitchRecord.place
  split
  · next h => simp [h]
  · next h => simp [h]

theorem SwitchRecord.place_of_ne {w : SwitchRecord} (h : w.out ≠ .waiting) : w.place = none := if_neg h

theorem SwitchQueue.Ok.without {q : SwitchQueue} {place : Channel → Option Bool} (h : q.Ok place) (c : Channel) :
    (q.without c).Ok (Function.update place c none) := by
  obtain ⟨nodup, mem⟩ := h
  obtain ⟨front, back, disjoint⟩ := List.nodup_append.1 nodup
  refine ⟨?_, fun d => ?_⟩
  · exact List.nodup_append.2 ⟨front.erase c, back.erase c,
      fun a ha b hb => disjoint a (List.mem_of_mem_erase ha) b (List.mem_of_mem_erase hb)⟩
  · by_cases e : d = c
    · subst e
      rw [Function.update_self]
      exact ⟨iff_of_false (fun h => (front.mem_erase_iff.1 h).1 rfl) nofun,
        iff_of_false (fun h => (back.mem_erase_iff.1 h).1 rfl) nofun⟩
    · rw [Function.update_of_ne e]
      exact ⟨(List.mem_erase_of_ne e).trans (mem d).1, (List.mem_erase_of_ne e).trans (mem d).2⟩

theorem SwitchQueue.Ok.withTail {q : SwitchQueue} {place : Channel → Option Bool} (h : q.Ok place) {c : Channel}
    (absent : place c = none) (cls : Option Sys2Proof.Class) :
    (q.withTail c cls).Ok (Function.update place c (some (inFrontGroup cls))) := by
  obtain ⟨nodup, mem⟩ := h
  have notFront : c ∉ q.front := fun hc => by rw [(mem c).1, absent] at hc; cases hc
  have notBack : c ∉ q.back := fun hc => by rw [(mem c).2, absent] at hc; cases hc
  obtain ⟨front, back, disjoint⟩ := List.nodup_append.1 nodup
  rw [← SwitchQueue.join_eq]
  unfold SwitchQueue.join
  cases inFrontGroup cls with
  | true =>
    refine ⟨?_, fun d => ?_⟩
    · simp only [if_true, List.append_assoc, List.singleton_append]
      exact List.nodup_middle.2 (List.nodup_cons.2 ⟨by simp [notFront, notBack], nodup⟩)
    · by_cases e : d = c
      · subst e; simp [notBack]
      · simp [e, (mem d).1, (mem d).2]
  | false =>
    refine ⟨?_, fun d => ?_⟩
    · simp only [Bool.false_eq_true, if_false, ← List.append_assoc]
      exact List.nodup_append_comm.1 (List.nodup_cons.2 ⟨by simp [notFront, notBack], nodup⟩)
    · by_cases e : d = c
      · subst e; simp [notFront]
      · simp [e, (mem d).1, (mem d).2]

/-! ### The pattern generators (R136) -/

/-- The number of users of a pattern under given output states. -/
def users (outs : Channel → OutState) (p : Pattern) : Nat := allChannels.countP fun c => decide (outs c = .flash p)

/-- The generators count their users, and are STOPPED exactly without any. -/
def GensOk (gens : Vector Generator 4) (outs : Channel → OutState) : Prop :=
  ∀ p : Pattern, gens[p].users = users outs p ∧ (gens[p].state = .stopped ↔ gens[p].users = 0)

/-- The output states of all channels. -/
def State.outs (s : State) (c : Channel) : OutState := (s.chan c).sw.out

theorem State.length_usersOf (s : State) (p : Pattern) : (s.usersOf p).length = users s.outs p :=
  List.countP_eq_length_filter.symm

/-- Counts that differ at one place. -/
theorem countP_update {α : Type} [DecidableEq α] {p q : α → Bool} {c : α} : ∀ {l : List α}, l.Nodup → c ∈ l →
    (∀ d, d ≠ c → p d = q d) → l.countP p + (q c).toNat = l.countP q + (p c).toNat
  | [], _, hc, _ => nomatch hc
  | d :: l, nodup, hc, same => by
    obtain ⟨hd, nodup⟩ := List.nodup_cons.1 nodup
    rw [List.countP_cons, List.countP_cons]
    by_cases e : d = c
    · subst e
      have rest : l.countP p = l.countP q := List.countP_congr fun a ha => by
        rw [same a fun e => hd (e ▸ ha)]
      rw [rest]
      cases p d <;> cases q d <;> simp
    · have ih := countP_update nodup ((List.mem_cons.1 hc).resolve_left (Ne.symm e)) same
      rw [same d e]
      split <;> omega

theorem users_update (outs : Channel → OutState) (c : Channel) (o : OutState) (p : Pattern) :
    users (Function.update outs c o) p + (if outs c = .flash p then 1 else 0) =
      users outs p + (if o = .flash p then 1 else 0) := by
  have h := countP_update (p := fun d => decide (Function.update outs c o d = .flash p))
    (q := fun d => decide (outs d = .flash p)) nodup_allChannels (mem_allChannels c)
    fun d ne => by rw [Function.update_of_ne ne]
  have toNat (P : Prop) [Decidable P] : (decide P).toNat = if P then 1 else 0 := by split <;> simp_all
  rw [Function.update_self, toNat, toNat] at h
  exact h

/-- A user counts. -/
theorem users_pos {outs : Channel → OutState} {c : Channel} {p : Pattern} (h : outs c = .flash p) : 0 < users outs p :=
  List.countP_pos_iff.2 ⟨c, mem_allChannels c, decide_eq_true h⟩

theorem users_of_two {outs : Channel → OutState} {c d : Channel} {p : Pattern} (ne : d ≠ c) (hc : outs c = .flash p)
    (hd : outs d = .flash p) : 1 < users outs p := by
  have h := users_update outs c .off p
  have pos := users_pos (outs := Function.update outs c .off) (c := d) (p := p) (by rw [Function.update_of_ne ne]; exact hd)
  rw [if_pos hc, if_neg nofun] at h
  omega

/-- Where no pattern gains or loses a user the generators stay in order. -/
theorem GensOk.congr {gens : Vector Generator 4} {outs : Channel → OutState} (h : GensOk gens outs) {c : Channel}
    {o : OutState} (old : ∀ p, outs c ≠ .flash p) (new : ∀ p, o ≠ .flash p) : GensOk gens (Function.update outs c o) := by
  intro p
  have count := users_update outs c o p
  rw [if_neg (old p), if_neg (new p)] at count
  obtain ⟨number, stopped⟩ := h p
  exact ⟨by omega, stopped⟩

theorem State.gens_set_get (gens : Vector Generator 4) (f p : Pattern) (g : Generator) :
    (gens.set f g)[p] = if p = f then g else gens[p] := vector_set_get ..

/-- A channel leaves its pattern (R136). -/
theorem GensOk.left {gens : Vector Generator 4} {outs : Channel → OutState} (h : GensOk gens outs) {c : Channel}
    {f : Pattern} (uses : outs c = .flash f) {o : OutState} (new : ∀ p, o ≠ .flash p) :
    GensOk (gens.set f gens[f].left) (Function.update outs c o) := by
  intro p
  have count := users_update outs c o p
  rw [if_neg (new p)] at count
  rw [State.gens_set_get]
  by_cases e : p = f
  · subst e
    obtain ⟨number, stopped⟩ := h p
    have pos := users_pos uses
    rw [if_pos uses] at count
    rw [if_pos rfl]
    refine ⟨by unfold Generator.left; dsimp only; omega, ?_⟩
    unfold Generator.left
    dsimp only
    split
    · exact iff_of_true rfl (by omega)
    · exact iff_of_false (mt stopped.1 (by omega)) (by omega)
  · obtain ⟨number, stopped⟩ := h p
    rw [if_neg fun k => e (OutState.flash.inj (k.symm.trans uses))] at count
    rw [if_neg e]
    exact ⟨by omega, stopped⟩

/-- The generator of a pattern that a channel joins, at a moment, with times from the pattern table. -/
theorem GensOk.joined {s : State} {outs : Channel → OutState} (h : GensOk s.gens outs) {c : Channel} {f : Pattern}
    (old : ∀ p, outs c ≠ .flash p) : GensOk (s.gens.set f (s.genJoined f)) (Function.update outs c (.flash f)) := by
  intro p
  have count := users_update outs c (.flash f) p
  rw [if_neg (old p)] at count
  rw [State.gens_set_get]
  by_cases e : p = f
  · subst e
    obtain ⟨number, stopped⟩ := h p
    rw [if_pos rfl] at count
    rw [if_pos rfl]
    refine ⟨by unfold State.genJoined; dsimp only; omega, iff_of_false ?_ (Nat.succ_ne_zero _)⟩
    unfold State.genJoined
    dsimp only
    split
    · nofun
    · next some => exact mt stopped.1 some
  · obtain ⟨number, stopped⟩ := h p
    rw [if_neg fun k => e (OutState.flash.inj k).symm] at count
    rw [if_neg e]
    exact ⟨by omega, stopped⟩

/-- For the other users of its pattern a channel's leaving changes no phase. -/
theorem GensOk.left_isOn {gens : Vector Generator 4} {outs : Channel → OutState} (h : GensOk gens outs) {c d : Channel}
    {f : Pattern} (uses : outs c = .flash f) (ne : d ≠ c) {p : Pattern} (hd : outs d = .flash p) :
    (gens.set f gens[f].left)[p].isOn = gens[p].isOn := by
  rw [State.gens_set_get]
  split
  · next e =>
    subst e
    have two := users_of_two ne uses hd
    have number := (h p).1
    unfold Generator.left Generator.isOn
    rw [if_neg (by omega)]
  · rfl

/-- For the users of a pattern a channel's joining changes no phase. -/
theorem GensOk.joined_isOn {s : State} {outs : Channel → OutState} (h : GensOk s.gens outs) {d : Channel} {f p : Pattern}
    (hd : outs d = .flash p) : (s.gens.set f (s.genJoined f))[p].isOn = s.gens[p].isOn := by
  rw [State.gens_set_get]
  split
  · next e =>
    subst e
    have pos := users_pos hd
    have number := (h p).1
    unfold State.genJoined Generator.isOn
    rw [if_neg (by omega)]
  · rfl

/-! ### One channel (R69, R72, R121 to R123) -/

/-- A sample kind is the one an output state calls for, under a profile's period and the phase of the patterns. -/
def KindFits (lit : Pattern → Bool) (period : Nat) (o : OutState) (k : SampleKind) : Prop :=
  match o with
  | .off => k = .voltage
  | .waiting => k = .voltage
  | .inrush _ => k = .current
  | .steady _ _ => k = .current
  | .flash p => k = if lit p then .current else .voltage
  | .pwm _ onTime _ start => ∃ pending, k = .periodic start (effectiveOn period onTime) pending

theorem State.senseFits_iff (s : State) (c : Channel) :
    s.SenseFits c ↔ KindFits s.patternOn (s.profile c).period (s.chan c).sw.out (s.chan c).sense.kind := by
  unfold State.SenseFits KindFits
  cases (s.chan c).sw.out <;> rfl

/-- What concerns one channel alone: its output state fits the granted output, an allowance is held in conduction only,
and the sample kind fits the output state. -/
def ChannelState.OutOk (x : ChannelState) (lit : Pattern → Bool) (period : Nat) : Prop :=
  x.sw.out.Fits x.sw.granted ∧ (x.sw.allowance ≠ none → x.sw.out.isOn = true) ∧ KindFits lit period x.sw.out x.sense.kind

theorem State.outputsOk_iff (s : State) :
    s.OutputsOk ↔ s.queue.Ok s.place ∧ GensOk s.gens s.outs ∧
      ∀ c, (s.chan c).OutOk s.patternOn (s.profile c).period := by
  unfold State.OutputsOk SwitchQueue.Ok GensOk State.place ChannelState.OutOk
  simp only [SwitchRecord.place_eq_some_iff, ← State.length_usersOf, ← State.senseFits_iff, forall_and]
  tauto

/-- The phase of a pattern is read by its users only. -/
theorem KindFits.congr {lit lit' : Pattern → Bool} {period : Nat} {o : OutState} {k : SampleKind}
    (h : KindFits lit period o k) (same : ∀ p, o = .flash p → lit' p = lit p) : KindFits lit' period o k := by
  cases o with
  | flash p =>
    change k = if lit' p then .current else .voltage
    rw [same p rfl]
    exact h
  | _ => exact h

/-- A move of channel c: with queue, generators and the channel in order, and no phase changed for the others, all
outputs are in order. -/
theorem outputsOk_setChan {s : State} (ok : s.OutputsOk) {c : Channel} {y : ChannelState} {q : SwitchQueue}
    {gens : Vector Generator 4} (queue : q.Ok (Function.update s.place c y.sw.place))
    (generators : GensOk gens (Function.update s.outs c y.sw.out))
    (phases : ∀ d, d ≠ c → ∀ p, (s.chan d).sw.out = .flash p → gens[p].isOn = s.patternOn p)
    (own : y.OutOk (fun p => gens[p].isOn) (s.profile c).period) :
    (({ s with queue := q, gens := gens } : State).setChan c y).OutputsOk := by
  obtain ⟨-, -, out⟩ := s.outputsOk_iff.1 ok
  generalize ht : ({ s with queue := q, gens := gens } : State).setChan c y = t
  have self : t.chan c = y := by rw [← ht, State.chan_setChan_self]
  have other (d : Channel) (ne : d ≠ c) : t.chan d = s.chan d := by rw [← ht, State.chan_setChan_ne _ _ ne]; rfl
  have lit : t.patternOn = fun p => gens[p].isOn := by rw [← ht]; rfl
  have profile (d : Channel) : t.profile d = s.profile d := by rw [← ht]; rfl
  have places : t.place = Function.update s.place c y.sw.place := by
    funext d
    unfold State.place
    by_cases e : d = c
    · subst e; rw [self, Function.update_self]
    · rw [other d e, Function.update_of_ne e]
  have outs : t.outs = Function.update s.outs c y.sw.out := by
    funext d
    unfold State.outs
    by_cases e : d = c
    · subst e; rw [self, Function.update_self]
    · rw [other d e, Function.update_of_ne e]
  refine t.outputsOk_iff.2 ⟨?_, ?_, fun d => ?_⟩
  · rw [places, ← ht]; exact queue
  · rw [outs, ← ht]; exact generators
  · by_cases e : d = c
    · subst e
      rw [self, lit, profile]
      exact own
    · obtain ⟨fits, allowance, kind⟩ := out d
      rw [other d e, profile]
      exact ⟨fits, allowance, kind.congr fun p hp => by rw [lit]; exact phases d e p hp⟩

end Sys2Proof.Machine
end

section
/-! SUPPORT. A hand-over and an admission keep the outputs in order (R121 to R137). -/

namespace Sys2Proof.Machine

/-! ### The channel after a move -/

@[simp] theorem ChannelState.entered_sw (x : ChannelState) (now : Moment) (out : OutState) (kind : SampleKind)
    (allowance : Option Moment) : (x.entered now out kind allowance).sw = { x.sw with out := out, allowance := allowance } := by
  unfold ChannelState.entered
  split <;> rfl

@[simp] theorem ChannelState.entered_kind (x : ChannelState) (now : Moment) (out : OutState) (kind : SampleKind)
    (allowance : Option Moment) : (x.entered now out kind allowance).sense.kind = kind := by
  unfold ChannelState.entered
  split <;> rfl

section
variable {x : ChannelState} {lit : Pattern → Bool} {period : Nat}

theorem ChannelState.entered_outOk {now : Moment} {out : OutState} {kind : SampleKind} {allowance : Option Moment}
    (on : out.isOn = true) (fits : out.Fits x.sw.granted) (kindFits : KindFits lit period out kind) :
    (x.entered now out kind allowance).OutOk lit period := by
  unfold ChannelState.OutOk
  rw [ChannelState.entered_sw, ChannelState.entered_kind]
  exact ⟨fits, fun _ => on, kindFits⟩

theorem ChannelState.inrushed_outOk (p : Profile) (now : Moment) (granted : x.sw.granted ≠ .off) :
    (x.inrushed p now).OutOk lit period := ChannelState.entered_outOk rfl granted rfl

theorem ChannelState.joined_outOk (p : Profile) {f : Pattern} {on : Bool} (now : Moment) (granted : x.sw.granted = .flash f)
    (phase : lit f = on) : (x.joined p f on now).OutOk lit period :=
  ChannelState.entered_outOk rfl granted (by rw [← phase]; rfl)

theorem Staged.running_fits (g : Staged) (now : Moment) : KindFits lit period (g.running period now).1 (g.running period now).2 := by
  cases g with
  | steady => rfl
  | pwm d => exact ⟨_, rfl⟩

theorem Staged.running_isOn (g : Staged) (now : Moment) : (g.running period now).1.isOn = true := by cases g <;> rfl

theorem Staged.running_granted (g : Staged) (now : Moment) : (g.running period now).1.Fits g.granted := by cases g <;> rfl

theorem ChannelState.running_outOk {g : Staged} (now : Moment) (allowance : Option Moment) (granted : x.sw.granted = g.granted) :
    (x.entered now (g.running period now).1 (g.running period now).2 allowance).OutOk lit period :=
  ChannelState.entered_outOk (g.running_isOn now) (by rw [granted]; exact g.running_granted now) (g.running_fits now)

theorem ChannelState.switchedOff_outOk (now : Moment) (granted : x.sw.granted = .off) :
    (x.switchedOff now).OutOk lit period := ⟨granted, fun h => absurd rfl h, rfl⟩

/-- An output state of a period is neither OFF, WAITING nor FLASH. -/
theorem Staged.running_ne (g : Staged) (now : Moment) :
    (g.running period now).1 ≠ .waiting ∧ ∀ f, (g.running period now).1 ≠ .flash f := by
  cases g <;> exact ⟨nofun, nofun⟩

end

/-! ### Queue and generators under a move -/

section
variable {s : State} {c : Channel}

theorem State.place_of_ne (h : (s.chan c).sw.out ≠ .waiting) : s.place c = none := SwitchRecord.place_of_ne h

theorem queue_kept (ok : s.queue.Ok s.place) {w : SwitchRecord} (old : (s.chan c).sw.out ≠ .waiting) (new : w.out ≠ .waiting) :
    s.queue.Ok (Function.update s.place c w.place) := by
  rw [SwitchRecord.place_of_ne new, ← State.place_of_ne old, Function.update_eq_self]
  exact ok

theorem queue_left (ok : s.queue.Ok s.place) {w : SwitchRecord} (new : w.out ≠ .waiting) :
    (s.queue.without c).Ok (Function.update s.place c w.place) := by
  rw [SwitchRecord.place_of_ne new]
  exact ok.without c

theorem place_waiting {w : SwitchRecord} (h : w.out = .waiting) : w.place = some (inFrontGroup w.cls) := if_pos h

end

/-! ### Admissions (R125, R126) -/

theorem State.OutputsOk.head_waiting {s : State} (ok : s.OutputsOk) {c : Channel} (head : s.queue.head = some c) :
    (s.chan c).sw.out = .waiting := by
  obtain ⟨⟨-, mem⟩, -, -⟩ := s.outputsOk_iff.1 ok
  rcases SwitchQueue.holds_head head with h | h
  · exact ((SwitchRecord.place_eq_some_iff ..).1 ((mem c).1.1 h)).1
  · exact ((SwitchRecord.place_eq_some_iff ..).1 ((mem c).2.1 h)).1

/-- A waiting channel is granted STEADY or PWM. -/
theorem OutState.Fits.waiting_ne_off {g : Granted} (h : OutState.waiting.Fits g) : g ≠ .off := by
  rcases h with rfl | ⟨d, rfl⟩ <;> nofun

/-- What a move of a channel that is neither before nor after it RUNNING FLASH leaves of the generators. -/
theorem gens_kept {s : State} (ok : GensOk s.gens s.outs) {c : Channel} {o : OutState} (old : ∀ f, (s.chan c).sw.out ≠ .flash f)
    (new : ∀ f, o ≠ .flash f) : GensOk s.gens (Function.update s.outs c o) := ok.congr old new

theorem admitHead_outputsOk {s : State} (ok : s.OutputsOk) {c : Channel} (head : s.queue.head = some c) :
    s.admitHead.OutputsOk := by
  have waiting := ok.head_waiting head
  obtain ⟨queue, gens, out⟩ := s.outputsOk_iff.1 ok
  have granted := (out c).1
  rw [waiting] at granted
  rw [State.admitHead_eq head]
  exact outputsOk_setChan (gens := s.gens) ok
    (queue_left queue (w := ((s.chan c).inrushed (s.profile c) s.now).sw) (by rw [ChannelState.inrushed, ChannelState.entered_sw]; nofun))
    (gens_kept gens (by rw [waiting]; nofun) (by rw [ChannelState.inrushed, ChannelState.entered_sw]; nofun))
    (fun _ _ _ _ => rfl) (ChannelState.inrushed_outOk _ _ granted.waiting_ne_off)

theorem admitUpTo_outputsOk : ∀ (n : Nat) {s : State}, s.OutputsOk → (s.admitUpTo n).OutputsOk
  | 0, _, ok => ok
  | n + 1, s, ok => by
    unfold State.admitUpTo
    split
    · next due =>
      obtain ⟨⟨c, head⟩, -⟩ := s.admissionDue_iff.1 due
      exact admitUpTo_outputsOk n (admitHead_outputsOk ok head)
    · exact ok

theorem admitQueued_outputsOk {s : State} (ok : s.OutputsOk) : s.admitQueued.OutputsOk := admitUpTo_outputsOk _ ok

/-! ### Hand-overs (R121) -/

/-- A move that leaves queue and generators: neither before nor after it the channel is WAITING or RUNNING FLASH. -/
theorem outputsOk_plain {s : State} (ok : s.OutputsOk) {c : Channel} {y : ChannelState}
    (old : (s.chan c).sw.out ≠ .waiting ∧ ∀ f, (s.chan c).sw.out ≠ .flash f)
    (new : y.sw.out ≠ .waiting ∧ ∀ f, y.sw.out ≠ .flash f) (own : y.OutOk s.patternOn (s.profile c).period) :
    (s.setChan c y).OutputsOk := by
  obtain ⟨queue, gens, -⟩ := s.outputsOk_iff.1 ok
  exact outputsOk_setChan (gens := s.gens) ok (queue_kept queue old.1 new.1) (gens_kept gens old.2 new.2)
    (fun _ _ _ _ => rfl) own

/-- A join of a pattern by a channel that is not RUNNING FLASH, with the queue as its leaving makes it. -/
theorem outputsOk_joined {s : State} (ok : s.OutputsOk) {c : Channel} {q : SwitchQueue} {x : ChannelState} {f : Pattern}
    (queue : q.Ok (Function.update s.place c none)) (old : ∀ p, (s.chan c).sw.out ≠ .flash p)
    (granted : x.sw.granted = .flash f) (now : Moment) :
    (({ s with queue := q, gens := s.gens.set f (s.genJoined f) } : State).setChan c
      (x.joined (s.profile c) f (s.genJoined f).isOn now)).OutputsOk := by
  obtain ⟨-, gens, -⟩ := s.outputsOk_iff.1 ok
  have out : (x.joined (s.profile c) f (s.genJoined f).isOn now).sw.out = .flash f := by
    rw [ChannelState.joined, ChannelState.entered_sw]
  refine outputsOk_setChan ok ?_ ?_ (fun d ne p hp => gens.joined_isOn hp) (ChannelState.joined_outOk _ _ granted ?_)
  · rw [SwitchRecord.place_of_ne (by rw [out]; nofun)]; exact queue
  · rw [out]; exact gens.joined old
  · rw [State.gens_set_get, if_pos rfl]

/-- A hand-over of OFF to a channel that is not OFF. -/
theorem turnOff_outputsOk {s : State} (ok : s.OutputsOk) {c : Channel} (ne : (s.chan c).sw.out ≠ .off)
    (cls : Option Sys2Proof.Class) : ((s.recorded c .off cls).turnOff c).OutputsOk := by
  obtain ⟨queue, gens, -⟩ := s.outputsOk_iff.1 ok
  have own {lit : Pattern → Bool} : (((s.chan c).handed .off cls).switchedOff s.now).OutOk lit (s.profile c).period :=
    ChannelState.switchedOff_outOk s.now rfl
  cases e : (s.chan c).sw.out with
  | off => exact absurd e ne
  | waiting =>
    rw [State.turnOff_waiting_recorded e]
    exact admitQueued_outputsOk (outputsOk_setChan (gens := s.gens) ok (queue_left queue nofun)
      (gens_kept gens (by rw [e]; nofun) nofun) (fun _ _ _ _ => rfl) own)
  | flash f =>
    rw [State.turnOff_flash_recorded e]
    exact outputsOk_setChan (q := s.queue) ok (queue_kept queue (by rw [e]; nofun) nofun) (gens.left e nofun)
      (fun d hd p hp => gens.left_isOn e hd hp) own
  | _ =>
    rw [State.turnOff_on_recorded (by rw [e]; rfl) (by rw [e]; nofun)]
    exact outputsOk_plain ok (by rw [e]; exact ⟨nofun, nofun⟩) ⟨nofun, nofun⟩ own

/-- A granted STEADY or PWM as R122 to R132 tell them from the rest. -/
theorem Granted.staged_of_ne {g : Granted} (off : g ≠ .off) (flash : ∀ f, g ≠ .flash f) : ∃ staged : Staged, g = staged.granted := by
  cases g with
  | off => exact absurd rfl off
  | steady => exact ⟨.steady, rfl⟩
  | pwm d => exact ⟨.pwm d, rfl⟩
  | flash f => exact absurd rfl (flash f)

theorem handOver_off_outputsOk {s : State} (ok : s.OutputsOk) {c : Channel} (out : (s.chan c).sw.out = .off) (g : Granted)
    (cls : Option Sys2Proof.Class) : (s.handOver c g cls).OutputsOk := by
  obtain ⟨queue, gens, outs⟩ := s.outputsOk_iff.1 ok
  obtain ⟨-, allowance, kind⟩ := outs c
  have plain : (s.chan c).sw.out ≠ .waiting ∧ ∀ f, (s.chan c).sw.out ≠ .flash f := by rw [out]; exact ⟨nofun, nofun⟩
  have outR : ((s.recorded c g cls).chan c).sw.out = .off := by rw [State.recorded_chan]; exact out
  have inrushed {x : ChannelState} (granted : x.sw.granted = g) (ne : g ≠ .off) {q : SwitchQueue}
      (h : q.Ok (Function.update s.place c none)) :
      (({ s with queue := q } : State).setChan c (x.inrushed (s.profile c) s.now)).OutputsOk := by
    have entered : (x.inrushed (s.profile c) s.now).sw.out = .inrush (s.now + 100 * (s.profile c).window) := by
      rw [ChannelState.inrushed, ChannelState.entered_sw]
    refine outputsOk_setChan (gens := s.gens) ok ?_ (gens_kept gens plain.2 (by rw [entered]; nofun)) (fun _ _ _ _ => rfl)
      (ChannelState.inrushed_outOk _ _ (by rw [granted]; exact ne))
    rw [SwitchRecord.place_of_ne (by rw [entered]; nofun)]
    exact h
  have emptied : s.queue.Ok (Function.update s.place c none) := by
    rw [← State.place_of_ne plain.1, Function.update_eq_self]; exact queue
  rw [State.handOver_eq]
  by_cases off : g = .off
  · subst off
    unfold State.actOn
    rw [outR]
    have own : ((s.chan c).handed .off cls).sw.out = .off := out
    refine outputsOk_plain ok plain (by rw [own]; exact ⟨nofun, nofun⟩) ⟨by rw [own]; rfl, allowance, kind⟩
  rw [State.actOn_off outR off]
  by_cases flash : ∃ f, g = .flash f
  · obtain ⟨f, rfl⟩ := flash
    change ((s.recorded c (.flash f) cls).joinPattern c f).OutputsOk
    rw [State.joinPattern_recorded]
    exact outputsOk_joined (q := s.queue) ok emptied plain.2 rfl s.now
  · obtain ⟨staged, rfl⟩ := Granted.staged_of_ne off fun f h => flash ⟨f, h⟩
    rw [State.leaveOff_staged]
    split
    · split
      · rw [State.joinQueue_recorded out]
        refine admitQueued_outputsOk (outputsOk_setChan (gens := s.gens) ok ?_ (gens_kept gens plain.2 nofun)
          (fun _ _ _ _ => rfl) ⟨?_, ?_, rfl⟩)
        · rw [place_waiting (w := ((s.chan c).handed staged.granted cls).queued.sw) rfl]
          exact queue.withTail (State.place_of_ne plain.1) cls
        · cases staged with
          | steady => exact .inl rfl
          | pwm d => exact .inr ⟨d, rfl⟩
        · intro held
          have on := allowance held
          rw [out] at on
          cases on
      · have entered := State.enterInrush_recorded { s with queue := { s.queue with lastAdmission := some s.now } } c
          staged.granted cls
        refine Eq.mpr (congrArg State.OutputsOk entered) ?_
        exact inrushed (q := { s.queue with lastAdmission := some s.now }) rfl staged.granted_ne_off emptied
    · split
      · rw [State.enterInrush_recorded]
        exact inrushed (q := s.queue) rfl staged.granted_ne_off emptied
      · rw [State.startPeriod_recorded]
        exact outputsOk_plain ok plain (by rw [ChannelState.entered_sw]; exact staged.running_ne s.now)
          (ChannelState.running_outOk s.now _ rfl)

theorem handOver_waiting_outputsOk {s : State} (ok : s.OutputsOk) {c : Channel} (out : (s.chan c).sw.out = .waiting) (g : Granted)
    (cls : Option Sys2Proof.Class) : (s.handOver c g cls).OutputsOk := by
  obtain ⟨queue, gens, outs⟩ := s.outputsOk_iff.1 ok
  obtain ⟨-, allowance, kind⟩ := outs c
  have outR : ((s.recorded c g cls).chan c).sw.out = .waiting := by rw [State.recorded_chan]; exact out
  have noFlash : ∀ f, (s.chan c).sw.out ≠ .flash f := by rw [out]; nofun
  rw [State.handOver_eq]
  by_cases off : g = .off
  · subst off
    rw [State.actOn_turnOff (by rw [outR]; nofun)]
    exact turnOff_outputsOk ok (by rw [out]; nofun) cls
  by_cases flash : ∃ f, g = .flash f
  · obtain ⟨f, rfl⟩ := flash
    rw [State.actOn_waiting_flash outR]
    have joined := State.joinPattern_recorded { s with queue := s.queue.without c } c (.flash f) cls f
    refine admitQueued_outputsOk (Eq.mpr (congrArg State.OutputsOk joined) ?_)
    exact outputsOk_joined ok (queue.without c) noFlash rfl s.now
  · obtain ⟨staged, rfl⟩ := Granted.staged_of_ne off fun f h => flash ⟨f, h⟩
    rw [State.actOn_waiting_staged outR, State.regroup_eq, State.recorded_chan]
    have stays : ((s.chan c).handed staged.granted cls).sw.out = .waiting := out
    have own {lit : Pattern → Bool} {period : Nat} (k : KindFits lit period .waiting (s.chan c).sense.kind) :
        ((s.chan c).handed staged.granted cls).OutOk lit period := by
      refine ⟨?_, allowance, ?_⟩
      · rw [stays]
        cases staged with
        | steady => exact .inl rfl
        | pwm d => exact .inr ⟨d, rfl⟩
      · rw [stays]; exact k
    rw [out] at kind
    have place : ((s.chan c).handed staged.granted cls).sw.place = some (inFrontGroup cls) := place_waiting stays
    have moved {q : SwitchQueue} (h : q.Ok (Function.update s.place c (some (inFrontGroup cls)))) :
        (({ s with queue := q } : State).setChan c ((s.chan c).handed staged.granted cls)).OutputsOk :=
      outputsOk_setChan (gens := s.gens) ok (by rw [place]; exact h) (gens_kept gens noFlash (by rw [stays]; nofun))
        (fun _ _ _ _ => rfl) (own kind)
    have regrouped := moved (q := (s.queue.without c).withTail c cls) (by
      have := (queue.without c).withTail (Function.update_self ..) cls
      rwa [Function.update_idem] at this)
    split
    · next stands =>
      refine moved (q := s.queue) ?_
      have stood : s.place c = some (inFrontGroup cls) := by
        replace stands : s.queue.stands c cls = true := stands
        unfold SwitchQueue.stands at stands
        split at stands
        · next front => rw [front]; exact (queue.2 c).1.1 (List.contains_iff_mem.1 stands)
        · next back => rw [Bool.eq_false_iff.2 back]; exact (queue.2 c).2.1 (List.contains_iff_mem.1 stands)
      rw [← stood, Function.update_eq_self]
      exact queue
    · dsimp only
      split
      · exact regrouped
      · exact admitQueued_outputsOk regrouped

theorem handOver_inrush_outputsOk {s : State} (ok : s.OutputsOk) {c : Channel} {ends : Moment}
    (out : (s.chan c).sw.out = .inrush ends) (g : Granted) (cls : Option Sys2Proof.Class) : (s.handOver c g cls).OutputsOk := by
  obtain ⟨-, -, outs⟩ := s.outputsOk_iff.1 ok
  obtain ⟨-, allowance, kind⟩ := outs c
  have outR : ((s.recorded c g cls).chan c).sw.out = .inrush ends := by rw [State.recorded_chan]; exact out
  have own : ((s.chan c).handed g cls).sw.out = .inrush ends := out
  rw [State.handOver_eq]
  by_cases off : g = .off
  · subst off
    rw [State.actOn_turnOff (by rw [outR]; nofun)]
    exact turnOff_outputsOk ok (by rw [out]; nofun) cls
  · rw [State.actOn_inrush outR off]
    exact outputsOk_plain ok (by rw [out]; exact ⟨nofun, nofun⟩) (by rw [own]; exact ⟨nofun, nofun⟩)
      ⟨by rw [own]; exact off, allowance, kind⟩

theorem OutState.stage_fits {o : OutState} (h : o.inPeriod = true) (g : Staged) : (o.stage g).Fits g.granted := by
  cases o with
  | steady => rfl
  | pwm => rfl
  | _ => cases h

theorem OutState.inPeriod_ne {o : OutState} (h : o.inPeriod = true) : o ≠ .waiting ∧ ∀ f, o ≠ .flash f := by
  cases o with
  | steady => exact ⟨nofun, nofun⟩
  | pwm => exact ⟨nofun, nofun⟩
  | _ => cases h

theorem OutState.stage_inPeriod {o : OutState} (h : o.inPeriod = true) (g : Staged) : (o.stage g).inPeriod = true := by
  cases o with
  | steady => rfl
  | pwm => rfl
  | _ => cases h

/-- Staging changes no sample kind. -/
theorem OutState.stage_kindFits {lit : Pattern → Bool} {period : Nat} {o : OutState} {k : SampleKind}
    (h : KindFits lit period o k) (g : Staged) : KindFits lit period (o.stage g) k := by cases o <;> exact h

theorem handOver_period_outputsOk {s : State} (ok : s.OutputsOk) {c : Channel} (out : (s.chan c).sw.out.inPeriod = true)
    (g : Granted) (cls : Option Sys2Proof.Class) : (s.handOver c g cls).OutputsOk := by
  obtain ⟨queue, -, outs⟩ := s.outputsOk_iff.1 ok
  obtain ⟨-, allowance, kind⟩ := outs c
  have outR : ((s.recorded c g cls).chan c).sw.out.inPeriod = true := by rw [State.recorded_chan]; exact out
  have on := OutState.isOn_of_inPeriod out
  have plain := OutState.inPeriod_ne out
  rw [State.handOver_eq]
  by_cases off : g = .off
  · subst off
    rw [State.actOn_turnOff (OutState.ne_off_of_isOn (OutState.isOn_of_inPeriod outR))]
    exact turnOff_outputsOk ok (OutState.ne_off_of_isOn on) cls
  by_cases flash : ∃ f, g = .flash f
  · obtain ⟨f, rfl⟩ := flash
    rw [State.actOn_period_flash outR, State.joinPattern_recorded]
    refine outputsOk_joined (q := s.queue) ok ?_ plain.2 rfl s.now
    rw [← State.place_of_ne plain.1, Function.update_eq_self]
    exact queue
  · obtain ⟨staged, rfl⟩ := Granted.staged_of_ne off fun f h => flash ⟨f, h⟩
    rw [State.actOn_period outR]
    unfold State.withSwitch
    rw [State.recorded_setChan, State.recorded_chan]
    have staying := OutState.stage_inPeriod out staged
    exact outputsOk_plain ok plain (OutState.inPeriod_ne staying)
      ⟨OutState.stage_fits out staged, fun _ => OutState.isOn_of_inPeriod staying, OutState.stage_kindFits kind staged⟩

/-- A channel that leaves its pattern for a state that is neither WAITING nor FLASH. -/
theorem outputsOk_left {s : State} (ok : s.OutputsOk) {c : Channel} {f : Pattern} (out : (s.chan c).sw.out = .flash f)
    {y : ChannelState} (new : y.sw.out ≠ .waiting ∧ ∀ p, y.sw.out ≠ .flash p)
    (own : ∀ lit, y.OutOk lit (s.profile c).period) :
    (({ s with gens := s.gens.set f s.gens[f].left } : State).setChan c y).OutputsOk := by
  obtain ⟨queue, gens, -⟩ := s.outputsOk_iff.1 ok
  exact outputsOk_setChan (q := s.queue) ok (queue_kept queue (by rw [out]; nofun) new.1) (gens.left out new.2)
    (fun d ne p hp => gens.left_isOn out ne hp) (own _)

/-- A channel that changes from one pattern to another (R135). -/
theorem outputsOk_rejoined {s : State} (ok : s.OutputsOk) {c : Channel} {f q : Pattern} (out : (s.chan c).sw.out = .flash f)
    (cls : Option Sys2Proof.Class) : ((({ s with gens := s.gens.set f s.gens[f].left } : State).recorded c (.flash q) cls).joinPattern c q).OutputsOk := by
  obtain ⟨queue, gens, -⟩ := s.outputsOk_iff.1 ok
  generalize hu : ({ s with gens := s.gens.set f s.gens[f].left } : State) = u
  have genU : u.gens = s.gens.set f s.gens[f].left := by rw [← hu]
  have left : GensOk u.gens (Function.update s.outs c .off) := by rw [genU]; exact gens.left out nofun
  rw [State.joinPattern_recorded]
  have frame (g : Vector Generator 4) : ({ u with gens := g } : State) = { s with gens := g } := by rw [← hu]
  have chan : u.chan c = s.chan c := by rw [← hu]; rfl
  have profile : u.profile c = s.profile c := by rw [← hu]; rfl
  have now : u.now = s.now := by rw [← hu]
  rw [frame, chan, profile, now]
  have joined : (((s.chan c).handed (.flash q) cls).joined (s.profile c) q (u.genJoined q).isOn s.now).sw.out = .flash q := by
    rw [ChannelState.joined, ChannelState.entered_sw]
  refine outputsOk_setChan (q := s.queue) ok ?_ ?_ (fun d ne p hp => ?_) (ChannelState.joined_outOk _ _ rfl ?_)
  · exact queue_kept queue (by rw [out]; nofun) (by rw [joined]; nofun)
  · rw [joined]
    have := left.joined (c := c) (f := q) (by rw [Function.update_self]; nofun)
    rwa [Function.update_idem] at this
  · have hd : Function.update s.outs c .off d = .flash p := by rw [Function.update_of_ne ne]; exact hp
    rw [left.joined_isOn hd, genU]
    exact gens.left_isOn out ne hp
  · rw [State.gens_set_get, if_pos rfl]

theorem handOver_flash_outputsOk {s : State} (ok : s.OutputsOk) {c : Channel} {f : Pattern}
    (out : (s.chan c).sw.out = .flash f) (g : Granted) (cls : Option Sys2Proof.Class) : (s.handOver c g cls).OutputsOk := by
  obtain ⟨queue, gens, outs⟩ := s.outputsOk_iff.1 ok
  obtain ⟨-, allowance, kind⟩ := outs c
  have outR : ((s.recorded c g cls).chan c).sw.out = .flash f := by rw [State.recorded_chan]; exact out
  rw [State.handOver_eq]
  by_cases off : g = .off
  · subst off
    rw [State.actOn_turnOff (by rw [outR]; nofun)]
    exact turnOff_outputsOk ok (by rw [out]; nofun) cls
  by_cases flash : ∃ q, g = .flash q
  · obtain ⟨q, rfl⟩ := flash
    rw [State.actOn_flash_flash outR]
    split
    · next same =>
      subst same
      have own : ((s.chan c).handed (.flash f) cls).sw.out = (s.chan c).sw.out := rfl
      refine outputsOk_setChan (q := s.queue) (gens := s.gens) ok (queue_kept queue (by rw [out]; nofun) (by rw [own, out]; nofun)) ?_
        (fun _ _ _ _ => rfl) ⟨by rw [own, out]; rfl, allowance, kind⟩
      rw [own, show (s.chan c).sw.out = s.outs c from rfl, Function.update_eq_self]
      exact gens
    · exact outputsOk_rejoined ok out cls
  · obtain ⟨staged, rfl⟩ := Granted.staged_of_ne off fun q h => flash ⟨q, h⟩
    rw [State.actOn_flash_staged outR]
    split
    · have entered := State.enterInrush_recorded { s with gens := s.gens.set f s.gens[f].left } c staged.granted cls
      refine Eq.mpr (congrArg State.OutputsOk entered) (outputsOk_left ok out ?_ fun _ =>
        ChannelState.inrushed_outOk _ _ staged.granted_ne_off)
      rw [ChannelState.inrushed, ChannelState.entered_sw]
      exact ⟨nofun, nofun⟩
    · have entered := State.startPeriod_recorded { s with gens := s.gens.set f s.gens[f].left } c staged.granted cls staged
      refine Eq.mpr (congrArg State.OutputsOk entered) (outputsOk_left ok out ?_ fun _ => ChannelState.running_outOk s.now _ rfl)
      rw [ChannelState.entered_sw]
      exact staged.running_ne s.now

/-- A hand-over keeps the outputs in order, whatever output state it finds. -/
theorem handOver_outputsOk {s : State} (ok : s.OutputsOk) (c : Channel) (g : Granted) (cls : Option Sys2Proof.Class) :
    (s.handOver c g cls).OutputsOk := by
  cases e : (s.chan c).sw.out with
  | off => exact handOver_off_outputsOk ok e g cls
  | waiting => exact handOver_waiting_outputsOk ok e g cls
  | inrush ends => exact handOver_inrush_outputsOk ok e g cls
  | steady old start => exact handOver_period_outputsOk ok (by rw [e]; rfl) g cls
  | pwm d n old start => exact handOver_period_outputsOk ok (by rw [e]; rfl) g cls
  | flash f => exact handOver_flash_outputsOk ok e g cls

end Sys2Proof.Machine
end

section
/-! SUPPORT. Every step keeps the outputs in order: updates that reach none of them, evaluations, and the events of the switch
controller, the scanner and the resets. -/

namespace Sys2Proof.Machine

/-! ### Updates that reach no output -/

/-- An update that keeps the outputs in order. -/
structure Outputs (s t : State) : Prop where
  outputsOk : s.OutputsOk → t.OutputsOk

theorem Outputs.refl (s : State) : Outputs s s := ⟨id⟩

theorem Outputs.trans {s t u : State} (h : Outputs s t) (k : Outputs t u) : Outputs s u := ⟨k.outputsOk ∘ h.outputsOk⟩

theorem Outputs.ite {s a b : State} {P : Prop} [Decidable P] (ha : P → Outputs s a) (hb : ¬P → Outputs s b) :
    Outputs s (if P then a else b) := by
  split
  · next h => exact ha h
  · next h => exact hb h

/-- A state with the same switch records, sample kinds, queue and generators, and the same periods but for channels in OFF. -/
theorem outputs_of_same {s t : State} (sw : ∀ c, (t.chan c).sw = (s.chan c).sw)
    (kind : ∀ c, (t.chan c).sense.kind = (s.chan c).sense.kind) (queue : t.queue = s.queue) (gens : t.gens = s.gens)
    (period : ∀ c, (t.profile c).period = (s.profile c).period ∨ (s.chan c).sw.out = .off) : Outputs s t := by
  refine ⟨fun ok => ?_⟩
  obtain ⟨queued, generators, out⟩ := s.outputsOk_iff.1 ok
  have place : t.place = s.place := by funext c; unfold State.place; rw [sw]
  have outs : t.outs = s.outs := by funext c; unfold State.outs; rw [sw]
  have lit : t.patternOn = s.patternOn := by funext p; unfold State.patternOn; rw [gens]
  refine t.outputsOk_iff.2 ⟨by rw [queue, place]; exact queued, by rw [gens, outs]; exact generators, fun c => ?_⟩
  obtain ⟨fits, allowance, kindFits⟩ := out c
  refine ⟨by rw [sw]; exact fits, by rw [sw]; exact allowance, ?_⟩
  rw [sw, kind, lit]
  rcases period c with h | h
  · rw [h]; exact kindFits
  · rw [h] at kindFits ⊢; exact kindFits

theorem outputs_frame (s : State) (image store lapsed graceStart scan sup lines latch faults now) :
    Outputs s { s with
      image := image, store := store, lapsed := lapsed, graceStart := graceStart, scan := scan, sup := sup
      lines := lines, latch := latch, faults := faults, now := now } :=
  outputs_of_same (fun _ => rfl) (fun _ => rfl) rfl rfl fun _ => .inl rfl

theorem outputs_setChan_same (s : State) {c : Channel} {x : ChannelState} (sw : x.sw = (s.chan c).sw)
    (kind : x.sense.kind = (s.chan c).sense.kind) : Outputs s (s.setChan c x) := by
  refine outputs_of_same (fun d => ?_) (fun d => ?_) rfl rfl fun _ => .inl rfl
  · rw [State.chan_setChan]
    split
    · next e => rw [sw, e]
    · rfl
  · rw [State.chan_setChan]
    split
    · next e => rw [kind, e]
    · rfl

theorem ProtFrame.outputs {c : Channel} {s t : State} (h : ProtFrame c s t) : Outputs s t := by
  have same (d : Channel) : (t.chan d).sw = (s.chan d).sw ∧ (t.chan d).sense = (s.chan d).sense := by
    by_cases e : d = c
    · subst e; rw [h.own]; exact ⟨rfl, rfl⟩
    · rw [h.others d e]; exact ⟨rfl, rfl⟩
  refine outputs_of_same (fun d => (same d).1) (fun d => by rw [(same d).2]) ?_ ?_ fun d => .inl ?_
  · rw [h.frame]
  · rw [h.frame]
  · unfold State.profile; rw [h.frame]

theorem Aside.outputs {s t : State} (h : Aside s t) : Outputs s t := by
  rw [h]
  exact outputs_of_same (fun _ => rfl) (fun _ => rfl) rfl rfl fun _ => .inl rfl

theorem outputs_evaluate (s : State) (c : Channel) : Outputs s (s.evaluate c) := by
  have judged : Outputs s (s.recordJudgement c) := by
    unfold State.recordJudgement
    exact outputs_setChan_same s rfl rfl
  exact judged.trans (.ite (fun _ => .refl _) fun _ => ⟨fun ok => handOver_outputsOk ok c _ _⟩)

/-- Demand table, lines, latch and supervisor keep the outputs in order. -/
theorem carries_outputs : Carries Outputs where
  refl := .refl
  trans := .trans
  frame s _ _ _ _ _ _ _ _ := outputs_frame s ..
  records s _ _ _ := outputs_setChan_same s rfl rfl
  evaluate := outputs_evaluate

/-! ### The timers of one channel -/

/-- A write of a channel that keeps its output state and class. -/
theorem outputsOk_sameOut {s : State} (ok : s.OutputsOk) {c : Channel} {y : ChannelState} (out : y.sw.out = (s.chan c).sw.out)
    (cls : y.sw.cls = (s.chan c).sw.cls) (own : y.OutOk s.patternOn (s.profile c).period) : (s.setChan c y).OutputsOk := by
  obtain ⟨queue, gens, -⟩ := s.outputsOk_iff.1 ok
  have place : y.sw.place = s.place c := by unfold SwitchRecord.place State.place SwitchRecord.place; rw [out, cls]
  refine outputsOk_setChan (q := s.queue) (gens := s.gens) ok ?_ ?_ (fun _ _ _ _ => rfl) own
  · rw [place, Function.update_eq_self]; exact queue
  · rw [out, show (s.chan c).sw.out = s.outs c from rfl, Function.update_eq_self]; exact gens

/-- The expiry of an allowance. -/
theorem outputs_dropAllowance (s : State) (c : Channel) : Outputs s (s.dropAllowance c) := by
  refine ⟨fun ok => ?_⟩
  obtain ⟨fits, -, kind⟩ := (s.outputsOk_iff.1 ok).2.2 c
  exact outputsOk_sameOut ok rfl rfl ⟨fits, fun h => absurd rfl h, kind⟩

/-- The end of an inrush window (R129). -/
theorem enterRunning_outputsOk {s : State} (ok : s.OutputsOk) {c : Channel} {ends : Moment}
    (out : (s.chan c).sw.out = .inrush ends) : (s.enterRunning c (s.chan c).sw.granted).OutputsOk := by
  obtain ⟨queue, -, outs⟩ := s.outputsOk_iff.1 ok
  have granted := (outs c).1
  rw [out] at granted
  have plain : (s.chan c).sw.out ≠ .waiting ∧ ∀ f, (s.chan c).sw.out ≠ .flash f := by rw [out]; exact ⟨nofun, nofun⟩
  have period {g : Staged} (h : (s.chan c).sw.granted = g.granted) : (s.startPeriod c g).OutputsOk := by
    rw [State.startPeriod_eq]
    exact outputsOk_plain ok plain (by rw [ChannelState.entered_sw]; exact g.running_ne s.now)
      (ChannelState.running_outOk s.now _ h)
  cases e : (s.chan c).sw.granted with
  | off => exact absurd e granted
  | steady => exact period (g := .steady) e
  | pwm d => exact period (g := .pwm d) e
  | flash f =>
    change (s.joinPattern c f).OutputsOk
    rw [State.joinPattern_eq]
    refine outputsOk_joined (q := s.queue) ok ?_ plain.2 e s.now
    rw [← State.place_of_ne plain.1, Function.update_eq_self]
    exact queue

/-- A period boundary: the staged output is the granted one (R132). -/
theorem startPeriod_outputsOk {s : State} (ok : s.OutputsOk) {c : Channel} {staged : Staged}
    (out : (∃ start, (s.chan c).sw.out = .steady staged start) ∨ ∃ d n start, (s.chan c).sw.out = .pwm d n staged start) :
    (s.startPeriod c staged).OutputsOk := by
  have granted := ((s.outputsOk_iff.1 ok).2.2 c).1
  have plain : (s.chan c).sw.out.inPeriod = true := by rcases out with ⟨_, e⟩ | ⟨_, _, _, e⟩ <;> rw [e] <;> rfl
  have same : (s.chan c).sw.granted = staged.granted := by
    rcases out with ⟨_, e⟩ | ⟨_, _, _, e⟩ <;> rw [e] at granted <;> exact granted
  rw [State.startPeriod_eq]
  exact outputsOk_plain ok (OutState.inPeriod_ne plain) (by rw [ChannelState.entered_sw]; exact staged.running_ne s.now)
    (ChannelState.running_outOk s.now _ same)

/-! ### Phases (R137, R138) -/

/-- A change of phase of a running pattern, with its users. -/
theorem outputsOk_phase {s t : State} (ok : s.OutputsOk) {p : Pattern} {g : Generator} (users : g.users = s.gens[p].users)
    (runs : s.gens[p].state ≠ .stopped) (runs' : g.state ≠ .stopped) (gens : ∀ q : Pattern, t.gens[q] = if q = p then g else s.gens[q])
    (frame : t = { s with chans := t.chans, gens := t.gens })
    (others : ∀ c, (s.chan c).sw.out ≠ .flash p → t.chan c = s.chan c)
    (own : ∀ c, (s.chan c).sw.out = .flash p → (t.chan c).sw.out = .flash p ∧ (t.chan c).sw.granted = (s.chan c).sw.granted
      ∧ (t.chan c).sense.kind = if g.isOn then .current else .voltage) : t.OutputsOk := by
  obtain ⟨queue, generators, out⟩ := s.outputsOk_iff.1 ok
  have outs : t.outs = s.outs := by
    funext c
    unfold State.outs
    by_cases e : (s.chan c).sw.out = .flash p
    · rw [(own c e).1, e]
    · rw [others c e]
  have place : t.place = s.place := by
    funext c
    unfold State.place
    by_cases e : (s.chan c).sw.out = .flash p
    · rw [SwitchRecord.place_of_ne (by rw [(own c e).1]; nofun), SwitchRecord.place_of_ne (by rw [e]; nofun)]
    · rw [others c e]
  have profile (c : Channel) : t.profile c = s.profile c := by unfold State.profile; rw [frame]
  refine t.outputsOk_iff.2 ⟨?_, fun q => ?_, fun c => ?_⟩
  · rw [place, frame]; exact queue
  · rw [gens, outs]
    obtain ⟨number, stopped⟩ := generators q
    split
    · next e =>
      subst e
      rw [users]
      exact ⟨number, iff_of_false runs' (mt stopped.2 runs)⟩
    · exact ⟨number, stopped⟩
  · obtain ⟨fits, allowance, kind⟩ := out c
    rw [profile]
    by_cases e : (s.chan c).sw.out = .flash p
    · obtain ⟨same, granted, new⟩ := own c e
      rw [e] at fits
      refine ⟨by rw [same, granted]; exact fits, fun _ => by rw [same]; rfl, ?_⟩
      rw [same, new]
      change _ = if t.gens[p].isOn then _ else _
      rw [gens, if_pos rfl]
    · rw [others c e]
      refine ⟨fits, allowance, kind.congr fun q hq => ?_⟩
      have ne : q ≠ p := fun k => e (by rw [hq, k])
      unfold State.patternOn
      rw [gens, if_neg ne]

theorem startOnPhase_outputsOk {s : State} (ok : s.OutputsOk) {p : Pattern} (runs : s.gens[p].state ≠ .stopped) :
    (s.startOnPhase p).OutputsOk := by
  obtain ⟨frame, gens, users, others⟩ := s.startOnPhase_restarts p
  refine outputsOk_phase (g := ⟨s.gens[p].users, s.latched p⟩) ok rfl runs nofun (fun q => ?_) frame
    (fun c unused => others c fun q hq => by rw [List.mem_singleton.1 hq]; exact unused) fun c uses => ?_
  · rw [gens]
    refine if_ctx_congr List.mem_singleton (fun e => ?_) fun _ => rfl
    rw [e]
  · rw [users c p List.mem_cons_self uses]
    exact ⟨uses, rfl, rfl⟩

/-- Restarts of running patterns, one after the other. -/
theorem restarts_outputsOk : ∀ (l : List Pattern) {s : State}, s.OutputsOk → (∀ p ∈ l, s.gens[p].state ≠ .stopped) →
    (l.foldl State.startOnPhase s).OutputsOk
  | [], _, ok, _ => ok
  | p :: l, s, ok, runs => by
    refine restarts_outputsOk l (startOnPhase_outputsOk ok (runs p List.mem_cons_self)) fun q hq => ?_
    rw [(s.startOnPhase_restarts p).gens]
    split
    · nofun
    · exact runs q (List.mem_cons_of_mem _ hq)

theorem outputs_flashSync (s : State) (mask : Nat) (src : NetSource) : Outputs s (State.flashSync mask src s).state := by
  by_cases h : 15 < mask
  · rw [State.flashSync_of_gt h]; exact .refl s
  · rw [State.flashSync_of_le (Nat.not_lt.1 h)]
    refine ⟨fun ok => restarts_outputsOk _ ok fun p hp => ?_⟩
    exact ((s.restarted_iff mask p).1 (List.mem_filter.1 hp).2).2

/-- The end of an ON_PHASE (R137). -/
theorem offPhase_outputsOk {s t : State} (ok : s.OutputsOk) {p : Pattern} {ends onTime offTime : Moment}
    (lit : s.gens[p].state = .running .on ends onTime offTime) (k : exec (.phaseTimerExpiry p) s = .next t) : t.OutputsOk := by
  obtain ⟨u, e, frame, chan⟩ := (patternChangesPhase s p ends onTime offTime).1 lit
  obtain rfl := Host.Outcome.next.inj (k.symm.trans e)
  have late : (s.advanceTo ends).OutputsOk := (carries_outputs.advanceTo s ends).outputsOk ok
  have runs : (s.advanceTo ends).gens[p].state ≠ .stopped := fun stopped => absurd (lit.symm.trans stopped) nofun
  refine outputsOk_phase (s := s.advanceTo ends) (p := p)
    (g := ⟨s.gens[p].users, .running .off (max s.now ends + offTime) onTime offTime⟩) late rfl runs nofun (fun q => ?_) ?_ (fun c unused => ?_) fun c uses => ?_
  · rw [frame]; exact vector_set_get ..
  · rw [frame]; rfl
  · exact (chan c).trans (if_neg unused)
  · rw [(chan c).trans (if_pos uses)]
    exact ⟨uses, rfl, rfl⟩

/-! ### The scanner (R68 to R76) -/

/-- A sense record written with its sample kind kept. -/
theorem outputs_withSense (s : State) (c : Channel) {f : SenseRecord → SenseRecord}
    (h : (f (s.chan c).sense).kind = (s.chan c).sense.kind) : Outputs s (s.withSense c f) := by
  unfold State.withSense
  exact outputs_setChan_same s rfl h

theorem SenseRecord.scanned_kind (r : SenseRecord) (milliamps millivolts : Int) : (r.scanned milliamps millivolts).kind = r.kind := by
  unfold SenseRecord.scanned
  split <;> rfl

theorem outputs_recordScan (s : State) (m : ScanReadings) : Outputs s (s.recordScan m) :=
  (outputs_frame s ..).trans (carries_outputs.foldl (fun _ _ => outputs_withSense _ _ (SenseRecord.scanned_kind ..)) _ _)

theorem outputs_deliverCurrent (s : State) (c : Channel) (current : Nat) (saturated : Bool) :
    Outputs s (s.deliverCurrent c current saturated) :=
  .ite (fun _ => .ite (fun _ => (protOnly_trip s c _).protFrame.outputs.trans (outputs_evaluate _ c))
    fun _ => (protOnly_checkOnState s c _).protFrame.outputs) fun _ => .refl s

theorem outputs_deliver (r s : State) (d : Delivery) : Outputs s (r.deliver s d) := by
  unfold State.deliver
  split
  · exact carries_outputs.deliverZone s _
  · dsimp only
    split
    · exact outputs_deliverCurrent s _ _ _
    · exact (protOnly_deliverVoltage s ..).protFrame.outputs
    · exact .refl s

/-- A sample of a period is none of the sample kinds of the other output states; whether it has been taken is not read. -/
theorem KindFits.taken {lit : Pattern → Bool} {period : Nat} {o : OutState} {start : Moment} {e : Nat} {b : Bool}
    (h : KindFits lit period o (.periodic start e b)) (b' : Bool) : KindFits lit period o (.periodic start e b') := by
  cases o with
  | pwm =>
    obtain ⟨pending, h⟩ := h
    obtain ⟨rfl, rfl, -⟩ := SampleKind.periodic.inj h
    exact ⟨b', rfl⟩
  | flash p =>
    replace h : SampleKind.periodic start e b = if lit p then .current else .voltage := h
    split at h <;> cases h
  | _ => cases h

theorem midpoint_outputsOk {s : State} (ok : s.OutputsOk) {c : Channel} {start : Moment} {e : Nat}
    (pending : (s.chan c).sense.kind = .periodic start e true) (reading : Nat) :
    (s.withSense c fun r => { r.takeCurrent reading with kind := .periodic start e false }).OutputsOk := by
  obtain ⟨fits, allowance, kind⟩ := (s.outputsOk_iff.1 ok).2.2 c
  rw [pending] at kind
  exact outputsOk_sameOut ok rfl rfl ⟨fits, allowance, kind.taken false⟩

/-! ### CONFIG_WRITE and the resets -/

/-- A profile is written while its output is OFF, so no period changes for a running channel (R12). -/
theorem outputs_profileWrite {s : State} {c : Channel} (off : (s.chan c).sw.out = .off) (f : ProfileField) (v : Nat) :
    Outputs s (({ s with cfg := s.cfg.write (.profile c f) v } : State).profileEffect c f) := by
  have written : Outputs s { s with cfg := s.cfg.write (.profile c f) v } := by
    refine outputs_of_same (fun _ => rfl) (fun _ => rfl) rfl rfl fun d => ?_
    by_cases e : d = c
    · exact .inr (e ▸ off)
    · refine .inl ?_
      unfold State.profile
      dsimp only
      rw [WorkingConfig.profile_write, if_neg e]
  exact written.trans (protFrame_profileEffect _ c f).outputs

theorem outputs_admitQueued (s : State) : Outputs s s.admitQueued := ⟨admitQueued_outputsOk⟩

theorem outputs_applyWrite {s : State} {n : ConfigField} (may : s.mayWrite n = true) (v : Nat) : Outputs s (s.applyWrite n v) := by
  have others (g : WorkingConfig) (h : g.profile = s.cfg.profile) : Outputs s { s with cfg := g } :=
    outputs_of_same (fun _ => rfl) (fun _ => rfl) rfl rfl fun c => .inl (by unfold State.profile; dsimp only; rw [h])
  refine .ite (fun _ => ?_) fun _ => ?_
  · cases n with
    | profile c f => exact outputs_evaluate s c
    | _ => exact .refl s
  · cases n with
    | profile c f =>
      have off : (s.chan c).sw.out = .off := of_decide_eq_true (Bool.and_eq_true_iff.1 may).1
      exact (outputs_profileWrite off f v).trans (outputs_evaluate _ c)
    | zone f => exact (others (s.cfg.write (.zone f) v) rfl).trans (carries_outputs.zoneEffect outputs_admitQueued _ f)
    | lapse src => exact others _ rfl
    | pattern p f => exact others _ rfl
    | line i f => exact (others (s.cfg.write (.line i f) v) rfl).trans (carries_outputs.lineEffect _ i f _)

/-- With every channel OFF, an empty queue and every pattern STOPPED the outputs are in order (R141). -/
theorem outputsOk_of_off {s : State} (queue : s.queue = ⟨[], [], none⟩) (gen : ∀ p : Pattern, s.gens[p] = ⟨0, .stopped⟩)
    (sw : ∀ c, (s.chan c).sw = ⟨.off, .off, none, none⟩) (kind : ∀ c, (s.chan c).sense.kind = .voltage) : s.OutputsOk := by
  have out (c : Channel) : s.outs c = .off := congrArg SwitchRecord.out (sw c)
  refine (State.outputsOk_iff _).2 ⟨?_, fun p => ?_, fun c => ?_⟩
  · rw [queue]
    refine ⟨List.nodup_nil, fun c => ?_⟩
    have place : s.place c = none := State.place_of_ne (fun h => absurd ((out c).symm.trans h) nofun)
    rw [place]
    exact ⟨iff_of_false List.not_mem_nil nofun, iff_of_false List.not_mem_nil nofun⟩
  · have none : users s.outs p = 0 := List.countP_eq_zero.2 fun c _ => by simp [out c]
    rw [gen, none]
    exact ⟨rfl, iff_of_true rfl rfl⟩
  · unfold ChannelState.OutOk
    rw [sw]
    exact ⟨rfl, fun h => absurd rfl h, kind c⟩

theorem resetTo_outputsOk (s : State) (cause : ResetCause) (pins : ResetPins) : (s.resetTo cause pins).OutputsOk :=
  outputsOk_of_off rfl (fun _ => Vector.getElem_replicate ..) (fun c => by rw [State.resetTo_chan]; rfl)
    fun c => by rw [State.resetTo_chan]; rfl

theorem afterReset_outputsOk (s : State) (cause : ResetCause) (pins : ResetPins) : (s.afterReset cause pins).OutputsOk :=
  (carries_outputs.afterLoad (s.resetTo cause pins)).outputsOk (resetTo_outputsOk s cause pins)

/-! ### Every command -/

theorem outputsOk_owners : KeptByOwners State.OutputsOk where
  aside h := h.outputs.outputsOk
  remove s l src := (carries_outputs.removeEntries s l src).outputsOk
  clear s selector src := by
    have cleared (t : State) (c : Channel) : Outputs t (t.clearProtection c) := (protOnly_clearProtection t c).protFrame.outputs
    refine Outputs.outputsOk ?_
    unfold State.clear
    split
    · unfold State.clearOne
      split
      · exact (cleared s _).trans (carries_outputs.evaluateMoved _ _ _)
      · exact .refl s
    · split
      · exact (carries_outputs.foldl cleared _ s).trans (carries_outputs.evaluateEach _ _)
      · exact .refl s
  latch s := (carries_outputs.clearLatch s).outputsOk
  floor s src f := (carries_outputs.setFloor s src f).outputsOk
  sync s mask src := (outputs_flashSync s mask src).outputsOk
  logs s l := (carries_outputs.clearLogs s l).outputsOk
  write _ _ v _ may := (outputs_applyWrite may v).outputsOk

theorem outputs_fuseTick (s : State) (c : Channel) : ∃ t, exec (.fuseTick c) s = .next t ∧ Outputs s t := by
  have ticked : Outputs s (s.fuseTicked c) := (carries_outputs.advanceTo s _).trans (protFrame_withProt _ c _).outputs
  have compared (t : State) : Outputs t (t.fuseCompared c) :=
    ((protOnly_compareLevels t c).protFrame.trans (protFrame_withProt _ c _)).outputs
  exact ⟨_, exec_fuseTick s c, (ticked.trans (compared _)).trans (carries_outputs.evaluateMoved _ _ c)⟩

/-- The events of the switch controller, the scanner, the protection unit and the resets keep the outputs in order. -/
theorem outputs_event {i : Instr} (s : State) (event : ((commandHeader i).isSome || Instr.isAside i) = false) :
    ∃ t, exec i s = .next t ∧ Outputs s t := by
  by_cases table : Instr.isTable i = true
  · exact carries_outputs.table table s
  have other : ((commandHeader i).isSome || Instr.isAside i || Instr.isTable i) = false := by
    rw [event, Bool.false_or]
    exact Bool.eq_false_iff.2 table
  have late (m : Moment) : Outputs s (s.advanceTo m) := carries_outputs.advanceTo s m
  cases i with
  | powerOn pins => exact ⟨_, rfl, ⟨fun _ => afterReset_outputsOk s _ pins⟩⟩
  | supplyDip pins => exact ⟨_, rfl, ⟨fun _ => afterReset_outputsOk s _ pins⟩⟩
  | external pins => exact ⟨_, rfl, ⟨fun _ => afterReset_outputsOk s _ pins⟩⟩
  | admission =>
    refine ⟨_, rfl, ?_⟩
    split <;> [exact .refl s; exact outputs_admitQueued s; exact (late _).trans (outputs_admitQueued _)]
  | inrushTimerExpiry c =>
    refine ⟨_, rfl, ?_⟩
    split
    · next ends out => exact (late ends).trans ⟨fun ok => enterRunning_outputsOk ok out⟩
    · exact .refl s
  | allowanceTimerExpiry c =>
    refine ⟨_, rfl, ?_⟩
    split <;> [exact (late _).trans (outputs_dropAllowance _ c); exact .refl s]
  | periodBoundary c =>
    refine ⟨_, rfl, ?_⟩
    split
    · next out => exact (late _).trans ⟨fun ok => startPeriod_outputsOk ok (.inl ⟨_, out⟩)⟩
    · next out => exact (late _).trans ⟨fun ok => startPeriod_outputsOk ok (.inr ⟨_, _, _, out⟩)⟩
    · exact .refl s
  | phaseTimerExpiry p =>
    cases e : s.gens[p].state with
    | stopped =>
      refine ⟨s, ?_, .refl s⟩
      change Host.Outcome.next _ = _
      rw [e]
    | running phase ends onTime offTime =>
      cases phase with
      | on =>
        obtain ⟨t, k, -⟩ := (patternChangesPhase s p ends onTime offTime).1 e
        exact ⟨t, k, ⟨fun ok => offPhase_outputsOk ok e k⟩⟩
      | off =>
        refine ⟨(s.advanceTo ends).startOnPhase p, ?_, (late ends).trans ⟨fun ok => startOnPhase_outputsOk ok fun stopped => ?_⟩⟩
        · change Host.Outcome.next _ = _
          rw [e]
        · exact absurd (e.symm.trans stopped) nofun
  | scan m order => exact ⟨_, rfl, ((late _).trans (outputs_recordScan _ m)).trans (carries_outputs.foldl (outputs_deliver _) _ _)⟩
  | pwmMidpoint c milliamps =>
    refine ⟨_, rfl, ?_⟩
    split
    · next start e pending =>
      exact ((late (start + e / 2)).trans ⟨fun ok => midpoint_outputsOk ok pending _⟩).trans (outputs_deliverCurrent _ c _ _)
    · exact .refl s
  | offTimeWaitComplete c =>
    refine ⟨_, rfl, ?_⟩
    split <;> [exact (late _).trans (protFrame_withProt _ c _).outputs; exact .refl s; exact .refl s]
  | fuseTick c => exact outputs_fuseTick s c
  | retryDelayExpiry c =>
    refine ⟨_, rfl, ?_⟩
    split <;> [exact (late _).trans (protFrame_withProt _ c _).outputs; exact .refl s]
  | stableRunExpiry c =>
    refine ⟨_, rfl, ?_⟩
    split <;> [exact (late _).trans (protFrame_withProt _ c _).outputs; exact .refl s]
  | _ => cases other

/-- Settles O8: every move of an output keeps queue, generators and the channel in order, and nothing else reaches them. -/
theorem outputsStayInOrder : Obligations.OutputsStayInOrder := fun _ _ =>
  outputsOk_owners.step (fun s _ => (outputs_of_same (s := s) (fun _ => rfl) (fun _ => rfl) rfl rfl fun _ => .inl rfl).outputsOk)
    fun _ s event ok =>
      let ⟨t, e, h⟩ := outputs_event s event
      ⟨t, e, h.outputsOk ok⟩

end Sys2Proof.Machine
end

section
/-! SUPPORT. The limiter chain that turns outputs OFF (R53 to R57), what follows of held channels, the evaluation of all
channels (R48, R49), a step and the state after reset. -/

namespace Sys2Proof.Machine

/-! ### A step (R1 of the chapter on steps) -/

/-- Settles O1: by the definition of the step. -/
theorem stepRunsFrontCommand : Obligations.StepRunsFrontCommand := fun _ => ⟨fun _ _ => rfl, rfl⟩

/-! ### The cuts of the limiter chain (R53) -/

@[simp] theorem Limited.cut_off (k : CauseSet) (c : Bool) (cause : LimitCause) :
    (⟨.off, k⟩ : Limited).cut c cause = ⟨.off, k⟩ := by simp [Limited.cut]

@[simp] theorem Limited.cut_false (x : Limited) (cause : LimitCause) : x.cut false cause = x := by simp [Limited.cut]

theorem Limited.cut_true {o : Output} (h : o ≠ .off) (k : CauseSet) (cause : LimitCause) :
    (⟨o, k⟩ : Limited).cut true cause = ⟨.off, k.add cause⟩ := by simp [Limited.cut, h]

theorem ProtState.tripped_iff (p : ProtState) : p.tripped = true ↔ p = .trippedOverload ∨ ∃ d, p = .trippedShort d := by
  cases p <;> simp [ProtState.tripped]

theorem ProtState.locked_iff (p : ProtState) : p.locked = true ↔ ∃ k, p = .lockout k := by
  cases p <;> simp [ProtState.locked]

theorem ProtState.tripped_of_locked {p : ProtState} (h : p.locked = true) : p.tripped = false := by
  cases p <;> first | rfl | cases h

theorem lowClass_iff (cls : Option Sys2Proof.Class) : lowClass cls = true ↔ cls = some .comfort ∨ cls = some .duty := by
  cases cls with
  | none => simp [lowClass]
  | some k => cases k <;> simp [lowClass, Class.high]

/-- The conditions of steps 2 to 4. -/
theorem emergency_iff (i : LimitInputs) :
    (i.latch && !i.profile.keeps) = true ↔ i.latch = true ∧ i.profile.emergencyKeep ≠ 1 := by simp [Profile.keeps]

theorem overvoltage_iff (i : LimitInputs) :
    (i.hold && lowClass i.cls) = true ↔ i.hold = true ∧ (i.cls = some .comfort ∨ i.cls = some .duty) := by
  rw [Bool.and_eq_true, lowClass_iff]

theorem shed_iff (i : LimitInputs) : (decide (4 ≤ i.profile.shedClass + i.level) && lowClass i.cls) = true ↔
    4 - i.level ≤ i.profile.shedClass ∧ (i.cls = some .comfort ∨ i.cls = some .duty) := by
  rw [Bool.and_eq_true, lowClass_iff, decide_eq_true_iff]
  refine and_congr_left fun _ => ?_
  omega

/-- The causes of an output that no step turns off. -/
theorem limitTail_causes (i : LimitInputs) (o : Output) :
    (limitConvert i (limitDerate i ⟨o, CauseSet.empty⟩)).causes = CauseSet.empty
      ∨ (limitConvert i (limitDerate i ⟨o, CauseSet.empty⟩)).causes = CauseSet.empty.add .derate := by
  have converted (x : Limited) : (limitConvert i x).causes = x.causes := by
    unfold limitConvert
    split
    · rfl
    · split
      · split
        · rfl
        · split <;> rfl
      · rfl
      · rfl
      · rfl
  rw [converted]
  unfold limitDerate
  split
  · split
    · split <;> [exact .inr rfl; exact .inl rfl]
    · split <;> [exact .inr rfl; exact .inl rfl]
    · exact .inl rfl
    · exact .inl rfl
  · exact .inl rfl

/-- Settles O14: the first cut whose condition holds turns the output OFF, and the later steps leave OFF as it is. -/
theorem limiterStepsTurnOff : Obligations.LimiterStepsTurnOff := by
  intro i o _ tripped locked emergency low shed
  have trips (h : ¬tripped) : i.prot.tripped = false := Bool.eq_false_iff.2 (mt (ProtState.tripped_iff _).1 h)
  have locks (h : ¬locked) : i.prot.locked = false := Bool.eq_false_iff.2 (mt (ProtState.locked_iff _).1 h)
  have keeps (h : ¬emergency) : (i.latch && !i.profile.keeps) = false := Bool.eq_false_iff.2 (mt (emergency_iff i).1 h)
  have holds (h : ¬(i.hold = true ∧ low)) : (i.hold && lowClass i.cls) = false :=
    Bool.eq_false_iff.2 (mt (overvoltage_iff i).1 h)
  have sheds (h : ¬shed) : (decide (4 ≤ i.profile.shedClass + i.level) && lowClass i.cls) = false :=
    Bool.eq_false_iff.2 (mt (shed_iff i).1 h)
  unfold limitChain limitProtection limitEmergency limitOvervoltage limitShed
  refine ⟨fun off => ?_, fun on trip => ?_, fun on lock => ?_, fun on free unlocked latched => ?_, fun on free unlocked kept high => ?_,
    fun on free unlocked kept normal dropped => ?_, fun on free unlocked kept normal fed => ?_⟩
  · subst off
    simp
  · rw [(ProtState.tripped_iff _).2 trip, Limited.cut_true on]
    simp
  · have lock := (ProtState.locked_iff _).2 lock
    rw [ProtState.tripped_of_locked lock, lock, Limited.cut_false, Limited.cut_true on]
    simp
  · rw [trips free, locks unlocked, (emergency_iff i).2 latched, Limited.cut_false, Limited.cut_false, Limited.cut_true on]
    simp
  · rw [trips free, locks unlocked, keeps kept, (overvoltage_iff i).2 high, Limited.cut_false, Limited.cut_false,
      Limited.cut_false, Limited.cut_true on]
    simp
  · rw [trips free, locks unlocked, keeps kept, holds normal, (shed_iff i).2 dropped, Limited.cut_false, Limited.cut_false,
      Limited.cut_false, Limited.cut_false, Limited.cut_true on]
    simp
  · rw [trips free, locks unlocked, keeps kept, holds normal, sheds fed]
    simp only [Limited.cut_false]
    exact ⟨trivial, limitTail_causes i o⟩

/-! ### Channels held back (R54 to R57) -/

/-- One of the steps that turn outputs OFF applies. -/
def LimitInputs.held (i : LimitInputs) : Prop :=
  i.prot.tripped = true ∨ i.prot.locked = true ∨ (i.latch && !i.profile.keeps) = true ∨ (i.hold && lowClass i.cls) = true
    ∨ (decide (4 ≤ i.profile.shedClass + i.level) && lowClass i.cls) = true

theorem Limited.cut_out_of_off {x : Limited} (h : x.out = .off) (c : Bool) (cause : LimitCause) : (x.cut c cause).out = .off := by
  unfold Limited.cut
  split
  · rfl
  · exact h

theorem Limited.cut_out_of_true (x : Limited) {c : Bool} (h : c = true) (cause : LimitCause) : (x.cut c cause).out = .off := by
  unfold Limited.cut
  split
  · rfl
  · next k =>
    subst h
    simpa using k

theorem limitTail_out_of_off (i : LimitInputs) {x : Limited} (h : x.out = .off) :
    (limitConvert i (limitDerate i x)).out = .off := by
  obtain ⟨o, k⟩ := x
  subst h
  rw [limitDerate_off, limitConvert_off]

theorem limitChain_out_of_held {i : LimitInputs} (h : i.held) (o : Output) : (limitChain i o).out = .off := by
  refine limitTail_out_of_off i ?_
  unfold limitShed limitOvervoltage limitEmergency limitProtection
  rcases h with h | h | h | h | h
  · exact Limited.cut_out_of_off (Limited.cut_out_of_off (Limited.cut_out_of_off (Limited.cut_out_of_off
      (Limited.cut_out_of_true _ h _) _ _) _ _) _ _) _ _
  · exact Limited.cut_out_of_off (Limited.cut_out_of_off (Limited.cut_out_of_off (Limited.cut_out_of_true _ h _) _ _) _ _) _ _
  · exact Limited.cut_out_of_off (Limited.cut_out_of_off (Limited.cut_out_of_true _ h _) _ _) _ _
  · exact Limited.cut_out_of_off (Limited.cut_out_of_true _ h _) _ _
  · exact Limited.cut_out_of_true _ h _

/-- Only OFF fits a granted OFF. -/
theorem OutState.Fits.eq_off {o : OutState} (h : o.Fits .off) : o = .off := by
  cases o with
  | off => rfl
  | waiting => rcases h with h | ⟨_, h⟩ <;> cases h
  | inrush => exact absurd rfl h
  | steady staged => cases staged <;> cases h
  | pwm _ _ staged => cases staged <;> cases h
  | flash => cases h

/-- A settled channel that a step of the chain holds back is OFF. -/
theorem out_off_of_held {s : State} {c : Channel} (settled : s.Settled c) (fits : (s.chan c).sw.out.Fits (s.chan c).sw.granted)
    (h : (s.limitInputs c ((s.chan c).demand.list.winner.map Winner.cls)).held) : (s.chan c).sw.out = .off := by
  obtain ⟨-, granted, -, handed, -⟩ := settled
  have off : (s.judge c).2.out = .off := limitChain_out_of_held h _
  rw [handed, granted, off] at fits
  exact fits.eq_off

/-- Settles O12: gate and pull-up by the output state, and the held channels by the limiter chain. -/
theorem heldChannelsAreOff : Obligations.HeldChannelsAreOff := by
  refine ⟨fun s c => ?_, fun s c settled outputs => ?_⟩
  · intro p out
    unfold State.gateOn
    refine ⟨fun h => ?_, fun ends h => ?_, fun staged start h => ?_, fun duty onTime staged start h => ?_, fun f h => ?_, ?_⟩
    · rcases h with h | h <;> rw [show (s.chan c).sw.out = _ from h]
    · rw [show (s.chan c).sw.out = _ from h]
    · rw [show (s.chan c).sw.out = _ from h]
    · rw [show (s.chan c).sw.out = _ from h]
      intro elapsed
      refine ⟨fun short => if_pos short, fun long whole => ?_, fun long partly => ?_⟩
      · exact (if_neg (Nat.not_lt.2 long)).trans (if_pos whole)
      · dsimp only
        rw [if_neg (Nat.not_lt.2 long), if_neg (Nat.not_lt.2 partly), decide_eq_true_iff]
    · rw [show (s.chan c).sw.out = _ from h]
      exact Generator.isOn_iff _
    · unfold State.pullUpApplied Profile.pulls
      rw [Bool.and_eq_true, decide_eq_true_iff, beq_iff_eq]
  · have fits := outputs.1 c
    have held := out_off_of_held (settled c) fits
    refine ⟨fun h => held (.inl ?_), fun d h => held (.inl ?_), fun k h => held (.inr (.inl ?_)),
      fun latch keep => held (.inr (.inr (.inl ((emergency_iff _).2 ⟨latch, keep⟩)))), fun w won low cause => ?_⟩
    · exact (ProtState.tripped_iff _).2 (.inl h)
    · exact (ProtState.tripped_iff _).2 (.inr ⟨d, h⟩)
    · exact (ProtState.locked_iff _).2 ⟨k, h⟩
    · have cls : (s.chan c).demand.list.winner.map Winner.cls = some w.cls := by
        rw [show (s.chan c).demand.list.winner = some w from (settled c).1.symm.trans won]; rfl
      have low : lowClass ((s.chan c).demand.list.winner.map Winner.cls) = true := by
        rw [cls, lowClass_iff]
        exact low.imp (congrArg some) (congrArg some)
      rcases cause with hold | shed
      · exact held (.inr (.inr (.inr (.inl (Bool.and_eq_true_iff.2 ⟨hold, low⟩)))))
      · exact held (.inr (.inr (.inr (.inr (Bool.and_eq_true_iff.2 ⟨decide_eq_true shed, low⟩)))))

/-! ### Evaluations (R48, R49) -/

theorem Evaluates.other {c d : Channel} {s t : State} (e : Evaluates c s t) (h : d ≠ c) :
    (t.chan d).demand = (s.chan d).demand ∧ (t.chan d).arb = (s.chan d).arb := by
  rcases e.others d h with same | ⟨-, -, -, demand, arb, -⟩
  · rw [same]; exact ⟨rfl, rfl⟩
  · exact ⟨demand, arb⟩

/-- Evaluations in a row lose nothing of a log. -/
theorem evaluateEach_log (l : List Channel) (s : State) (c : Channel) (k : LimitCause) (h : (s.chan c).arb.log.has k = true) :
    ((s.evaluateEach l).chan c).arb.log.has k = true := by
  induction l generalizing s with
  | nil => exact h
  | cons d l ih =>
    refine ih (s.evaluate d) ?_
    have e := evaluates s d
    by_cases hc : c = d
    · subst hc
      rw [e.log]
      cases k <;> exact Bool.or_eq_true_iff.2 (.inl h)
    · rw [(e.other hc).2]; exact h

/-- Evaluations in a row leave the last network winner that the winner of the list, which they keep, gives it. -/
theorem evaluateEach_lastWinner (l : List Channel) (s : State) (c : Channel) :
    ((s.evaluateEach l).chan c).demand.lastNetworkWinner =
      if c ∈ l then lastWinnerAfter (s.chan c).demand.lastNetworkWinner (s.chan c).demand.list.winner
      else (s.chan c).demand.lastNetworkWinner := by
  induction l generalizing s with
  | nil => rfl
  | cons d l ih =>
    have e := evaluates s d
    have list : ((s.evaluate d).chan c).demand.list = (s.chan c).demand.list := (e.kept c).1
    refine (ih (s.evaluate d)).trans ?_
    rw [list]
    by_cases hc : c = d
    · subst hc
      rw [e.lastWinner, if_pos List.mem_cons_self]
      split
      · exact lastWinnerAfter_idem ..
      · rfl
    · rw [(e.other hc).1]
      exact if_congr (by simp [hc]) rfl rfl

theorem evaluateAll_lastWinner (s : State) (c : Channel) : (s.evaluateAll.chan c).demand.lastNetworkWinner =
    lastWinnerAfter (s.chan c).demand.lastNetworkWinner (s.chan c).demand.list.winner := by
  unfold State.evaluateAll
  rw [evaluateEach_lastWinner, if_pos (mem_allChannels c)]

theorem evaluateAll_winner (s : State) (c : Channel) :
    (s.evaluateAll.chan c).arb.winner = (s.chan c).demand.list.winner := by
  obtain ⟨-, kept, -, settled⟩ := evaluateAll_evaluated s
  have winner := congrArg DemandList.winner (kept c).1
  generalize s.evaluateAll = t at settled winner ⊢
  exact (settled c (mem_allChannels c)).1.trans winner

theorem evaluateAll_log (s : State) (c : Channel) (k : LimitCause) (h : (s.chan c).arb.log.has k = true) :
    (s.evaluateAll.chan c).arb.log.has k = true := by
  unfold State.evaluateAll
  exact evaluateEach_log allChannels s c k h

theorem evaluateAll_idle (s : State) (c : Channel) : Idle s.evaluateAll c := by
  unfold State.evaluateAll
  exact evaluateEach_idle allChannels s c (.inl (mem_allChannels c))

theorem evaluateAll_eq (s : State) : s.evaluateAll = (List.finRange 16).foldl State.evaluate s := by
  unfold State.evaluateAll State.evaluateEach
  rw [show allChannels = List.finRange 16 by decide]

theorem CauseSet.has_of_union {a b : CauseSet} (h : a.union b = a) (k : LimitCause) (hk : b.has k = true) : a.has k = true := by
  rw [← h]
  cases k <;> exact Bool.or_eq_true_iff.2 (.inr hk)

/-- Settles O17: one evaluation by its definition, and all sixteen by what each keeps of the others. -/
theorem evaluationOfAllChannels : Obligations.EvaluationOfAllChannels := by
  refine ⟨fun s c => ?_, fun s c => ?_⟩
  · intro x w cls l last r
    have lastWinner : lastWinnerAfter x.demand.lastNetworkWinner w = last := by
      clear_value w
      rcases w with _ | ⟨src, cls, cmd⟩
      · rfl
      · cases src <;> cases cmd <;> rfl
    have judged : s.recordJudgement c = r := by
      change s.setChan c { x with
        demand := { x.demand with lastNetworkWinner := lastWinnerAfter x.demand.lastNetworkWinner w }
        arb := ⟨w, l.out.grant, l.causes, x.arb.log.union l.causes⟩ } = r
      rw [lastWinner]
    have switch : (r.chan c).sw = x.sw := by rw [State.chan_setChan_self]
    have evaluated : s.evaluate c = if (r.chan c).sw.granted = l.out.grant ∧ (r.chan c).sw.cls = cls then r
        else r.handOver c l.out.grant cls := by rw [← judged]; rfl
    rw [evaluated, switch]
    exact ⟨fun same => if_pos same, fun differ => if_neg differ⟩
  · have last := evaluateAll_lastWinner s c
    have idle := evaluateAll_idle s c
    have eq := evaluateAll_eq s
    have won := evaluateAll_winner s c
    have log := evaluateAll_log s c
    generalize s.evaluateAll = t at last idle eq won log ⊢
    intro w t
    refine ⟨eq, won, fun src cls a h => ?_, fun src cls h => ?_, fun h => ?_, fun k => ?_,
      log⟩
    · exact last.trans (congrArg (lastWinnerAfter _) h)
    · exact last.trans (congrArg (lastWinnerAfter _) h)
    · refine last.trans ?_
      rcases e : w with _ | ⟨src, cls, cmd⟩
      · exact congrArg (lastWinnerAfter _) e
      · refine (congrArg (lastWinnerAfter _) e).trans ?_
        cases src with
        | net src => exact absurd e (h src cls cmd)
        | line => rfl
        | fallback => rfl
    · exact CauseSet.has_of_union idle.log k

/-! ### The state after reset (R17, R18, R45, R66, R94, R118, R141, R157, R179) -/

theorem State.reset_chan (c : Channel) : State.reset.chan c = ChannelState.atReset 0 := Vector.getElem_replicate ..

theorem State.reset_gen (p : Pattern) : State.reset.gens[p] = ⟨0, .stopped⟩ := Vector.getElem_replicate ..

theorem reset_faultsOk : State.reset.faults.Ok := by
  refine ⟨⟨by decide, List.nodup_singleton _, fun r h => ?_⟩, Nat.zero_le _,
    ⟨⟨Nat.zero_le _, List.nodup_nil, nofun⟩, fun e h => ?_, List.pairwise_singleton _ _⟩, by decide⟩
  · rw [List.mem_singleton.1 h]
    exact ⟨Nat.le_refl _, by decide, Nat.le_refl _, Nat.le_refl _, fun _ => rfl⟩
  · rw [List.mem_singleton.1 h]
    exact ⟨Nat.le_refl _, nofun⟩

theorem reset_protectionOk : State.reset.ProtectionOk := fun c => by
  unfold State.ProtOk
  rw [State.reset_chan]
  exact ⟨Nat.zero_le _, Nat.zero_le _, fun h => absurd rfl h, iff_of_false nofun fun h => h rfl, Nat.zero_le _, Nat.zero_le _⟩

theorem reset_supOk : State.reset.sup.Ok := by
  unfold Supervisor.Ok
  refine ⟨rfl, Nat.zero_le _, Nat.zero_le _, fun src f h => ?_, Nat.zero_le _⟩
  cases src <;> cases h

theorem reset_portsOk : State.reset.PortsOk := by
  refine ⟨fun port src => ?_, fun port h => ?_, fun r h => ?_⟩
  · cases port <;> exact Nat.zero_le _
  · cases port <;> cases h
  · rcases h with h | h <;> cases h

theorem reset_ok : State.reset.Ok :=
  ⟨reset_faultsOk, show WorkingConfig.default.valid = true by decide,
    demandsOk_of_empty (fun c => congrArg ChannelState.demand (State.reset_chan c)) fun _ =>
      congrArg LineRecord.active (Vector.getElem_replicate ..),
    fun c => settled_atReset (t := 0) (State.reset_chan c),
    outputsOk_of_off rfl State.reset_gen (fun c => congrArg ChannelState.sw (State.reset_chan c)) fun c =>
      congrArg (fun x => x.sense.kind) (State.reset_chan c),
    reset_protectionOk, reset_supOk, reset_portsOk⟩

/-- Settles O3: the invariants block by block, and the fields of the state after reset. -/
theorem resetStateInOrder : Obligations.ResetStateInOrder := by
  refine ⟨reset_ok, fun c => ?_, rfl, rfl, rfl, rfl, State.reset_gen, rfl, rfl, rfl, rfl, rfl, rfl, rfl, rfl, rfl, rfl⟩
  rw [State.reset_chan]
  exact ⟨rfl, rfl, rfl, rfl, rfl, rfl, rfl, rfl⟩

end Sys2Proof.Machine
end

section
/-! SUPPORT. The demand table: what DEMAND frames, pulse expiries, lapses and the end of the start grace make of every
channel (R24 to R38, R44). -/

namespace Sys2Proof.Machine

/-! ### Lists written, and channels evaluated after that (R44) -/

/-- What is kept of a channel's records whose demand record and limit-cause log are written before an evaluation. -/
theorem ChannelState.Kept.but_demand {x y z : ChannelState} (h : y.Kept z) (sense : y.sense = x.sense) (prot : y.prot = x.prot) :
    ({ x with demand := z.demand } : ChannelState).Kept z := by
  obtain ⟨-, -, current, voltage, protection⟩ := h
  rw [sense] at current voltage
  rw [prot] at protection
  exact ⟨rfl, rfl, current, voltage, protection⟩

theorem State.SameOrAdmitted.of_eq {s u t : State} {c : Channel} (h : u.SameOrAdmitted t c) (chan : u.chan c = s.chan c)
    (queue : u.queue = s.queue) : s.SameOrAdmitted t c := by
  unfold State.SameOrAdmitted at h ⊢
  rw [← chan, ← queue]
  exact h

theorem DemandList.differs_self (l : DemandList) : l.differs l = false := decide_eq_false fun h => h rfl

theorem DemandList.differs_of_fallback {l m : DemandList} (h : l.fallback.map Entry.content ≠ m.fallback.map Entry.content) :
    l.differs m = true := decide_eq_true fun same => h (congrArg DemandList.fallback same)

theorem DemandList.content_get (l : DemandList) (src : NetSource) : l.content.net.get src = (l.net.get src).map Entry.content := by
  cases src <;> rfl

theorem DemandList.differs_of_net {l m : DemandList} (src : NetSource)
    (h : (l.net.get src).map Entry.content ≠ (m.net.get src).map Entry.content) : l.differs m = true :=
  decide_eq_true fun same => h (by rw [← DemandList.content_get, ← DemandList.content_get, same])

theorem PerSource.set_get_of_eq {α : Type} {t : PerSource α} {src : NetSource} {x : α} (h : t.get src = x) : t.set src x = t := by
  subst h; cases src <;> rfl

/-- The loss of a source's entry is a change of the list. -/
theorem DemandList.differs_removed (l : DemandList) (src : NetSource) :
    l.differs { l with net := l.net.set src none } = (l.net.get src).isSome := by
  cases e : l.net.get src with
  | none =>
    rw [PerSource.set_get_of_eq e]
    exact l.differs_self
  | some x =>
    refine DemandList.differs_of_net src ?_
    rw [e, PerSource.get_set_self]
    exact nofun

/-! ### The end of the start grace (R38) -/

theorem Profile.fallbackKind_on (p : Profile) : (p.fallbackKind == .on) = decide (p.fallback = 1) := by
  unfold Profile.fallbackKind
  rcases p.fallback with _ | _ | n
  · rfl
  · rfl
  · exact (decide_eq_false (by omega)).symm

/-- The channel receives a FALLBACK entry at the end of the start grace, under a profile (R38). -/
def ChannelState.unclaimed (x : ChannelState) (p : Profile) : Bool :=
  !x.demand.claimed && !x.demand.list.hasNetwork && x.demand.list.fallback.isNone && p.fallbackKind == .on

theorem ChannelState.unclaimed_iff (x : ChannelState) (p : Profile) : x.unclaimed p = true ↔
    x.demand.claimed = false ∧ x.demand.list.hasNetwork = false ∧ x.demand.list.fallback = none ∧ p.fallback = 1 := by
  unfold ChannelState.unclaimed
  rw [Profile.fallbackKind_on]
  simp [and_assoc]

/-- What the end of the start grace makes of a channel before its evaluation (R38). -/
def ChannelState.graced (x : ChannelState) (p : Profile) : ChannelState :=
  if x.unclaimed p then x.withList { x.demand.list with fallback := some ⟨.comfort, .ask .on, none⟩ } else x

theorem byChannel_grace (s : State) :
    ByChannel (fun t c => if t.unclaimed c then
        t.withDemand c fun d => { d with list := { d.list with fallback := some ⟨.comfort, .ask .on, none⟩ } } else t)
      id (fun t => t = { s with chans := t.chans }) fun c x => x.graced (s.profile c) :=
  byChannel_setChan s fun t c ht => by
    have unclaimed : t.unclaimed c = (t.chan c).unclaimed (s.profile c) := by rw [ht]; rfl
    by_cases h : (t.chan c).unclaimed (s.profile c) = true
    · rw [if_pos (unclaimed.trans h)]
      exact congrArg (t.setChan c) (if_pos h).symm
    · rw [if_neg fun k => h (unclaimed.symm.trans k)]
      exact (t.setChan_chan c).symm.trans (congrArg (t.setChan c) (if_neg h).symm)

theorem State.graceEntries_frame (s : State) : s.graceEntries = { s with chans := s.graceEntries.chans } :=
  (byChannel_grace s).foldl_keeps _ s rfl

theorem State.graceEntries_chan (s : State) (c : Channel) : s.graceEntries.chan c = (s.chan c).graced (s.profile c) := by
  unfold State.graceEntries
  rw [(byChannel_grace s).foldl_chan nodup_allChannels rfl, if_pos (mem_allChannels c)]

theorem ChannelState.graced_eq (x : ChannelState) (p : Profile) :
    x.graced p = { x with demand := (x.graced p).demand } := by
  unfold ChannelState.graced; split <;> rfl

/-- The end of the start grace does what R38 says. -/
theorem State.graceEnded_endGrace (s : State) : s.GraceEnded s.endGrace := by
  have chan (c : Channel) := State.graceEntries_chan { s with graceStart := none } c
  have wrote := State.graceEntries_frame { s with graceStart := none }
  unfold State.endGrace
  dsimp only
  generalize ({ s with graceStart := none } : State).graceEntries = u at chan wrote ⊢
  obtain ⟨frame, kept, others, settled⟩ := evaluateChanged_evaluated u { s with graceStart := none }
  generalize u.evaluateChanged { s with graceStart := none } = t at frame kept others settled ⊢
  refine ⟨by rw [frame, wrote], fun c => ?_⟩
  have own : u.chan c = (s.chan c).graced (s.profile c) := chan c
  intro l receives
  have unclaimed : (s.chan c).unclaimed (s.profile c) = true ↔ receives := ChannelState.unclaimed_iff ..
  refine ⟨fun h => ?_, fun h => ?_, (kept c).but_demand ?_ ?_⟩
  · have written : (u.chan c).demand.list = { l with fallback := some ⟨.comfort, .ask .on, none⟩ } := by
      rw [own, ChannelState.graced, if_pos (unclaimed.2 h)]; rfl
    refine ⟨(kept c).1.trans written, settled c (List.mem_filter.2 ⟨mem_allChannels c, ?_⟩)⟩
    rw [written]
    refine DemandList.differs_of_fallback ?_
    rw [show ((({ s with graceStart := none } : State).chan c).demand.list.fallback) = none from h.2.2.1]
    exact nofun
  · have same : u.chan c = s.chan c := by
      rw [own, ChannelState.graced, if_neg fun k => h (unclaimed.1 k)]
    refine (others c fun mem => ?_).of_eq same (by rw [wrote])
    have differs := (List.mem_filter.1 mem).2
    rw [same] at differs
    exact absurd differs (Bool.eq_false_iff.1 (DemandList.differs_self _))
  · rw [own, ChannelState.graced_eq]
  · rw [own, ChannelState.graced_eq]

/-- Settles O28: START_GRACE_END takes the end of the wait at the moment it is due or later. -/
theorem startGraceInsertsFallback : Obligations.StartGraceInsertsFallback := by
  intro s start h
  refine ⟨(s.advanceTo (start + 1000 * s.cfg.zone.startGrace)).endGrace, ?_, State.graceEnded_endGrace _⟩
  unfold exec execStartGraceEnd
  rw [h]

/-! ### Pulses (R31) -/

/-- Settles O26: the entry written, and the evaluation of its channel. -/
theorem pulseBecomesSpent : Obligations.PulseBecomesSpent := by
  intro s src c cls n ends deadline h
  let u : State := (s.advanceTo ends).setChan c ((s.chan c).withList { (s.chan c).demand.list with
    net := (s.chan c).demand.list.net.set src (some ⟨cls, .pulse n .spent, deadline⟩) })
  have taken : exec (.pulseTimerExpiry src c) s = .next (u.evaluate c) := by
    change execPulseTimerExpiry src c s = _
    unfold execPulseTimerExpiry
    rw [h]
    rfl
  obtain ⟨frame, kept, others, settled⟩ := evaluate_evaluated u c
  have own : u.chan c = _ := State.chan_setChan_self ..
  have other (d : Channel) (hd : d ≠ c) : u.chan d = s.chan d := State.chan_setChan_ne _ _ hd
  have records (d : Channel) : (u.chan d).sense = (s.chan d).sense ∧ (u.chan d).prot = (s.chan d).prot := by
    by_cases hd : d = c
    · rw [hd, own]; exact ⟨rfl, rfl⟩
    · rw [other d hd]; exact ⟨rfl, rfl⟩
  refine ⟨u.evaluate c, taken, frame, (kept c).1.trans ?_, settled c List.mem_cons_self,
    fun d hd => (others d (by simpa using hd)).of_eq (other d hd) rfl,
    fun d => (kept d).but_demand (records d).1 (records d).2⟩
  rw [own]; rfl

/-! ### Lapses (R33, R35) -/

/-- Network entries without those of some sources. -/
def PerSource.without (t : PerSource (Option Machine.Entry)) (l : List NetSource) : PerSource (Option Machine.Entry) :=
  l.foldl (fun n src => n.set src none) t

theorem PerSource.get_without (src : NetSource) : ∀ (l : List NetSource) (t : PerSource (Option Machine.Entry)),
    (PerSource.without t l).get src = if src ∈ l then none else t.get src
  | [], _ => rfl
  | r :: l, t => by
    refine (PerSource.get_without src l (t.set r none)).trans ?_
    rw [PerSource.get_set]
    by_cases h : src = r
    · simp [h]
    · simp [h]

theorem DemandList.hasNetwork_eq_false (l : DemandList) : l.hasNetwork = false ↔ ∀ src, l.net.get src = none := by
  unfold DemandList.hasNetwork
  rw [List.any_eq_false]
  exact ⟨fun h src => by simpa using h src (mem_allNetSources src), fun h src _ => by simp [h src]⟩

/-- Fallbacks inserted at two lapses of one channel are those of the second. -/
theorem DemandList.fallenBack_twice (l : DemandList) (f : Fallback) (last : Option Ask) (gone : List NetSource) :
    DemandList.fallenBack { l.fallenBack f last with net := PerSource.without l.net gone } f last =
      DemandList.fallenBack { l with net := PerSource.without l.net gone } f last := by
  by_cases h : l.hasNetwork = true
  · rw [show l.fallenBack f last = l from if_pos h]
  · have none : ∀ src, l.net.get src = none := l.hasNetwork_eq_false.1 (Bool.eq_false_iff.2 h)
    have still (g : Option Machine.Entry) :
        DemandList.hasNetwork { l with net := PerSource.without l.net gone, fallback := g } = false := by
      refine (DemandList.hasNetwork_eq_false _).2 fun src => ?_
      rw [PerSource.get_without, none src, ite_self]
    rw [show l.fallenBack f last = { l with fallback := (fallbackFor f last).or l.fallback } from if_neg h]
    unfold DemandList.fallenBack
    rw [if_neg (Bool.eq_false_iff.1 (still _)), if_neg (Bool.eq_false_iff.1 (still _))]
    cases fallbackFor f last <;> rfl

theorem ChannelState.logged_twice (x : ChannelState) (l : DemandList) (k : LimitCause) :
    ((x.logged k).withList l).logged k = (x.withList l).logged k := by
  cases k <;> rfl

/-- Lapses of several entries of a channel: the entries removed, and the FALLBACK entry called for after the last. -/
theorem ChannelState.lapsed_foldl (p : Profile) (l : List NetSource) (x : ChannelState) (h : l ≠ []) :
    l.foldl (fun x src => x.lapsed p src) x =
      (x.withList (DemandList.fallenBack { x.demand.list with net := PerSource.without x.demand.list.net l } p.fallbackKind
        x.demand.lastNetworkWinner)).logged .lapse := by
  induction l generalizing x with
  | nil => exact absurd rfl h
  | cons src l ih =>
    rcases l with _ | ⟨r, l⟩
    · rfl
    · rw [List.foldl_cons, ih _ (List.cons_ne_nil _ _)]
      let first : DemandList := { x.demand.list with net := x.demand.list.net.set src none }
      have twice := first.fallenBack_twice p.fallbackKind x.demand.lastNetworkWinner (r :: l)
      have net := (first.fallenBack_net p.fallbackKind x.demand.lastNetworkWinner).1
      change (((x.withList _).logged .lapse).withList (DemandList.fallenBack
        { first.fallenBack p.fallbackKind x.demand.lastNetworkWinner with
          net := PerSource.without (first.fallenBack p.fallbackKind x.demand.lastNetworkWinner).net (r :: l) }
        p.fallbackKind x.demand.lastNetworkWinner)).logged .lapse = _
      rw [net, twice, ChannelState.logged_twice]
      rfl

theorem ChannelState.mem_dueSources {s : State} {c : Channel} {due : Moment} {src : NetSource} :
    src ∈ (s.chan c).dueSources due ↔ s.fallsDue due src c = true :=
  ⟨fun h => (List.mem_filter.1 h).2, fun h => List.mem_filter.2 ⟨mem_allNetSources src, h⟩⟩

theorem PerSource.get_foldl_true (src : NetSource) : ∀ (l : List NetSource) (f : PerSource Bool),
    (l.foldl (fun f src => f.set src true) f).get src = true ↔ f.get src = true ∨ src ∈ l
  | [], _ => by simp
  | r :: l, f => by
    rw [List.foldl_cons, PerSource.get_foldl_true src l, PerSource.get_set]
    by_cases h : src = r
    · simp [h]
    · simp [h]

/-- The lapses set the flags of the sources that lose an entry. -/
theorem State.lapsed_lapses (s : State) (due : Moment) (src : NetSource) : ∀ (l : List Channel) (t : State), l.Nodup →
    (∀ c ∈ l, t.chan c = s.chan c) →
    ((l.foldl (fun t c => t.lapseChannel due c) t).lapsed.get src = true ↔
      t.lapsed.get src = true ∨ ∃ c ∈ l, s.fallsDue due src c = true)
  | [], _, _, _ => by simp
  | c :: l, t, nodup, same => by
    obtain ⟨fresh, nodup⟩ := List.nodup_cons.1 nodup
    have own : src ∈ (t.chan c).dueSources due ↔ s.fallsDue due src c = true := by
      rw [same c List.mem_cons_self]; exact ChannelState.mem_dueSources
    have later (d : Channel) (hd : d ∈ l) : (t.lapseChannel due c).chan d = s.chan d := by
      rw [State.lapseChannel_eq, ← same d (List.mem_cons_of_mem _ hd)]
      exact State.chan_setChan_ne _ _ fun e => fresh (e ▸ hd)
    have flags : (t.lapseChannel due c).lapsed.get src = true ↔ t.lapsed.get src = true ∨ s.fallsDue due src c = true := by
      rw [State.lapseChannel_eq, ← own]
      exact PerSource.get_foldl_true src _ _
    rw [List.foldl_cons, State.lapsed_lapses s due src l _ nodup later, flags, or_assoc]
    simp only [List.mem_cons, exists_eq_or_imp]

/-- The lapses of a moment, before the channels are evaluated. -/
def State.lapses (s : State) (due : Moment) : State := allChannels.foldl (fun t c => t.lapseChannel due c) s

theorem State.lapses_frame (s : State) (due : Moment) :
    s.lapses due = { s with chans := (s.lapses due).chans, lapsed := (s.lapses due).lapsed } :=
  (byChannel_lapse s due).foldl_keeps _ s rfl

theorem State.lapses_chan_of_none {s : State} {due : Moment} {c : Channel} (h : ∀ x, s.fallsDue due x c = false) :
    (s.lapses due).chan c = s.chan c := by
  have none : (s.chan c).dueSources due = [] := List.eq_nil_iff_forall_not_mem.2 fun x hx =>
    absurd (ChannelState.mem_dueSources.1 hx) (Bool.eq_false_iff.1 (h x))
  unfold State.lapses
  rw [(byChannel_lapse s due).foldl_chan nodup_allChannels rfl, if_pos (mem_allChannels c), none]
  rfl

theorem State.lapses_chan_of_some {s : State} {due : Moment} {c : Channel} (h : ∃ x, s.fallsDue due x c = true) :
    (s.lapses due).chan c = ((s.chan c).withList (DemandList.fallenBack { (s.chan c).demand.list with
      net := PerSource.without (s.chan c).demand.list.net ((s.chan c).dueSources due) } (s.profile c).fallbackKind
        (s.chan c).demand.lastNetworkWinner)).logged .lapse := by
  obtain ⟨x, hx⟩ := h
  have some : (s.chan c).dueSources due ≠ [] := List.ne_nil_of_mem (ChannelState.mem_dueSources.2 hx)
  unfold State.lapses
  rw [(byChannel_lapse s due).foldl_chan nodup_allChannels rfl, if_pos (mem_allChannels c),
    ChannelState.lapsed_foldl _ _ _ some]

theorem State.lapses_net (s : State) (due : Moment) (c : Channel) (x : NetSource) :
    ((s.lapses due).chan c).demand.list.net.get x =
      if s.fallsDue due x c then none else (s.chan c).demand.list.net.get x := by
  by_cases h : ∃ x, s.fallsDue due x c = true
  · rw [State.lapses_chan_of_some h]
    refine (congrArg (fun n => PerSource.get n x) (DemandList.fallenBack_net ..).1).trans ?_
    rw [PerSource.get_without]
    exact if_congr ChannelState.mem_dueSources rfl rfl
  · have none : ∀ x, s.fallsDue due x c = false := fun x => Bool.eq_false_iff.2 fun k => h ⟨x, k⟩
    rw [State.lapses_chan_of_none none, none x]
    rfl

/-- The FALLBACK entry of a list that lost an entry, by the profile's setting (R35). -/
theorem DemandList.fallenBack_fallback (l : DemandList) (p : Profile) (last : Option Ask) :
    (l.fallenBack p.fallbackKind last).fallback =
      if (l.fallenBack p.fallbackKind last).hasNetwork then l.fallback
      else
        match p.fallback, last with
        | 0, _ => l.fallback
        | 1, _ => some ⟨.comfort, .ask .on, none⟩
        | _, some a => some ⟨.comfort, .ask a, none⟩
        | _, none => l.fallback := by
  have network : (l.fallenBack p.fallbackKind last).hasNetwork = l.hasNetwork :=
    congrArg (fun n : PerSource (Option Machine.Entry) => allNetSources.any fun s => (n.get s).isSome) (DemandList.fallenBack_net ..).1
  rw [network]
  unfold DemandList.fallenBack
  split
  · rfl
  · unfold Profile.fallbackKind
    rcases p.fallback with _ | _ | n <;> cases last <;> rfl

/-- Settles O27: the lapses of the moment, channel by channel, and the evaluations of the channels that lost an entry. -/
theorem lapseRemovesEntries : Obligations.LapseRemovesEntries := by
  intro s src c e due entry deadline
  have taken : exec (.lapse src c) s = .next ((s.advanceTo due).lapseAll due) := by
    obtain ⟨cls, cmd, deadline⟩ := e
    subst deadline
    change execLapse src c s = _
    unfold execLapse
    rw [entry]
  have wrote := (s.advanceTo due).lapses_frame due
  have flags (x : NetSource) := State.lapsed_lapses (s.advanceTo due) due x allChannels _ nodup_allChannels fun _ _ => rfl
  have unlost (d : Channel) := State.lapses_chan_of_none (s := s.advanceTo due) (due := due) (c := d)
  have lost (d : Channel) := State.lapses_chan_of_some (s := s.advanceTo due) (due := due) (c := d)
  have net (d : Channel) := (s.advanceTo due).lapses_net due d
  unfold State.lapseAll at taken
  change exec (.lapse src c) s =
    .next ((((s.advanceTo due).lapses due).report ((s.advanceTo due).lapseReports due)).evaluateEach _) at taken
  change ∀ x, ((s.advanceTo due).lapses due).lapsed.get x = true ↔ _ at flags
  generalize (s.advanceTo due).lapses due = r at taken wrote flags unlost lost net
  generalize concerned_eq : allChannels.filter (fun d => allNetSources.any fun x => (s.advanceTo due).fallsDue due x d) = concerned
    at taken
  have mem (d : Channel) : d ∈ concerned ↔ ∃ x, s.fallsDue due x d = true := by
    rw [← concerned_eq]
    refine List.mem_filter.trans ?_
    rw [List.any_eq_true]
    exact ⟨fun ⟨_, x, _, h⟩ => ⟨x, h⟩, fun ⟨x, h⟩ => ⟨mem_allChannels d, x, mem_allNetSources x, h⟩⟩
  generalize u_eq : r.report ((s.advanceTo due).lapseReports due) = u at taken
  have chan (d : Channel) : u.chan d = r.chan d := by rw [← u_eq]; rfl
  have log (d : Channel) (k : LimitCause) := evaluateEach_log concerned u d k
  obtain ⟨frame, kept, others, settled⟩ := evaluateEach_evaluated u concerned
  generalize u.evaluateEach concerned = t at taken log frame kept others settled
  refine ⟨t, taken, ?_, fun x => ?_, fun d => ⟨fun x => ?_, ?_, fun none => ?_, fun some => ⟨?_, ?_, ?_⟩, ?_⟩⟩
  · rw [frame, ← u_eq, wrote]
    rfl
  · have flag : t.lapsed.get x = true ↔ s.lapsed.get x = true ∨ ∃ d ∈ allChannels, s.fallsDue due x d = true := by
      rw [frame, ← u_eq]; exact flags x
    simpa only [mem_allChannels, true_and] using flag
  · exact (congrArg (fun l : DemandList => l.net.get x) ((kept d).1.trans (by rw [chan]))).trans (net d x)
  · refine (congrArg DemandList.line ((kept d).1.trans (by rw [chan]))).trans ?_
    by_cases h : ∃ x, s.fallsDue due x d = true
    · rw [lost d h]
      exact (DemandList.fallenBack_net ..).2
    · rw [unlost d fun x => Bool.eq_false_iff.2 fun k => h ⟨x, k⟩]
      rfl
  · refine (others d fun h => ?_).of_eq ((chan d).trans (unlost d none)) (by rw [← u_eq, wrote]; rfl)
    obtain ⟨x, hx⟩ := (mem d).1 h
    exact absurd hx (Bool.eq_false_iff.1 (none x))
  · exact settled d ((mem d).2 some)
  · refine log d .lapse ?_
    rw [chan, lost d some]
    rfl
  · have list : (t.chan d).demand.list = DemandList.fallenBack _ _ _ := (kept d).1.trans (by rw [chan, lost d some]; rfl)
    rw [list]
    exact DemandList.fallenBack_fallback ..
  · have records : (r.chan d).sense = (s.chan d).sense ∧ (r.chan d).prot = (s.chan d).prot := by
      by_cases h : ∃ x, s.fallsDue due x d = true
      · rw [lost d h]; exact ⟨rfl, rfl⟩
      · rw [unlost d fun x => Bool.eq_false_iff.2 fun k => h ⟨x, k⟩]; exact ⟨rfl, rfl⟩
    exact (kept d).but_demand ((congrArg ChannelState.sense (chan d)).trans records.1)
      ((congrArg ChannelState.prot (chan d)).trans records.2)

/-! ### DEMAND frames (R24 to R30) -/

theorem State.clearLapsed_eq (s : State) (src : NetSource) : s.clearLapsed src = { s with
    lapsed := s.lapsed.set src false
    faults := if s.lapsed.get src then s.faults.finish s.now (.sourceLapsed src) else s.faults } := by
  unfold State.clearLapsed
  cases h : s.lapsed.get src
  · rw [PerSource.set_get_of_eq h]; rfl
  · rfl

theorem mem_groupPlaces (i : Fin 4) : i ∈ groupPlaces := by revert i; decide

theorem nodup_groupChannels (g : Fin 4) : (groupPlaces.map (groupChannel g)).Nodup := by revert g; decide

/-- Settles O25: the flag cleared, and REFUSED logged place by place. -/
theorem serviceDemandRefused : Obligations.ServiceDemandRefused := by
  intro s rx data sender inactive
  have by_place : ByChannel
      (fun t i => if (demandItem data i).code = .skip then t else t.logCause (groupChannel (s.demandGroup rx) i) .refused)
      (groupChannel (s.demandGroup rx)) (fun t => t = { s.clearLapsed .service with chans := t.chans })
      fun i x => if (demandItem data i).code = .skip then x else x.logged .refused :=
    byChannel_setChan _ fun t i _ => by
      split
      · exact (t.setChan_chan _).symm
      · exact t.logCause_eq _ _
  have taken : exec (.demand rx data) s = .next ((s.clearLapsed .service).refuseCodes (s.demandGroup rx) data) := by
    change execDemand rx data s = _
    unfold execDemand
    rw [sender]
    have lost : (s.clearLapsed .service).lines.svc.active = false := by rw [State.clearLapsed_eq]; exact inactive
    exact congrArg _ (if_pos ⟨rfl, lost⟩)
  have chan (c : Channel) : (s.clearLapsed .service).chan c = s.chan c := by rw [State.clearLapsed_eq]; rfl
  refine ⟨_, taken, ?_, fun i => ?_, fun c other => ?_⟩
  · refine (by_place.foldl_keeps groupPlaces _ rfl).trans ?_
    rw [State.clearLapsed_eq]
    rfl
  · refine (by_place.foldl_own (nodup_groupChannels _) (mem_groupPlaces i) rfl).trans ?_
    rw [chan]
    rfl
  · exact (by_place.foldl_others _ _ rfl fun i _ => other i).trans (chan c)

/-- The tests of R26, in the words of the obligation. -/
theorem DemandItem.refused_iff (d : DemandItem) (p : Profile) (src : NetSource) : d.refused p src = true ↔
    (d.code ≠ .skip ∧ d.code ≠ .release ∧ p.permits src = false) ∨ (d.code = .flash ∧ 3 < d.argument) := by
  unfold DemandItem.refused
  cases d.code <;> simp

theorem DemandItem.writes_iff (d : DemandItem) (own : Option Machine.Entry) : d.writes own = true ↔
    d.code = .off ∨ d.code = .on ∨ d.code = .dim ∨ d.code = .flash
      ∨ (d.code = .pulse ∧ ¬∃ cls n ph due, own = some ⟨cls, .pulse n ph, due⟩) := by
  have pulse : own.any Entry.isPulse = true ↔ ∃ cls n ph due, own = some ⟨cls, .pulse n ph, due⟩ := by
    rcases own with _ | ⟨cls, cmd, due⟩
    · simp
    · cases cmd <;> simp [Entry.isPulse]
  unfold DemandItem.writes
  rw [← pulse]
  cases d.code <;> simp

theorem byChannel_takeCodes (s : State) (src : NetSource) (g : Fin 4) (data : Vector Byte 8) :
    ByChannel (fun t i => t.takeCode src (groupChannel g i) (demandItem data i)) (groupChannel g)
      (fun t => t = { s with chans := t.chans })
      fun i x => x.took (s.profile (groupChannel g i)) src (demandItem data i) s.now (s.lapseDeadline src) s.graceStart.isSome :=
  byChannel_setChan s fun t i ht => by
    rw [State.takeCode_eq]
    rw [ht]
    rfl

/-- Settles O24: the codes place by place, and the evaluation of the channels whose list changed. -/
theorem demandFrameTakesCodes : Obligations.DemandFrameTakesCodes := by
  intro s rx data src sender served
  have cleared := s.clearLapsed_eq src
  have taken : exec (.demand rx data) s =
      .next (((s.clearLapsed src).takeCodes src (s.demandGroup rx) data).evaluateChanged (s.clearLapsed src)) := by
    change execDemand rx data s = _
    unfold execDemand
    rw [sender]
    have still : ¬(src = .service ∧ (s.clearLapsed src).lines.svc.active = false) := by rw [cleared]; exact served
    exact congrArg _ (if_neg still)
  have by_place := byChannel_takeCodes (s.clearLapsed src) src (s.demandGroup rx) data
  have frame : (s.clearLapsed src).takeCodes src (s.demandGroup rx) data = { s.clearLapsed src with
      chans := ((s.clearLapsed src).takeCodes src (s.demandGroup rx) data).chans } := by_place.foldl_keeps groupPlaces _ rfl
  have own (i : Fin 4) : ((s.clearLapsed src).takeCodes src (s.demandGroup rx) data).chan (groupChannel (s.demandGroup rx) i) = _ :=
    by_place.foldl_own (nodup_groupChannels (s.demandGroup rx)) (mem_groupPlaces i) rfl
  have others (c : Channel) (h : ∀ i, c ≠ groupChannel (s.demandGroup rx) i) :
      ((s.clearLapsed src).takeCodes src (s.demandGroup rx) data).chan c = (s.clearLapsed src).chan c :=
    by_place.foldl_others _ _ rfl fun i _ => h i
  have evaluated := evaluateEach_evaluatesTo ((s.clearLapsed src).takeCodes src (s.demandGroup rx) data)
    (allChannels.filter fun c => ((s.clearLapsed src).chan c).demand.list.differs
      (((s.clearLapsed src).takeCodes src (s.demandGroup rx) data).chan c).demand.list)
  unfold State.evaluateChanged at taken
  generalize (s.clearLapsed src).takeCodes src (s.demandGroup rx) data = u at taken frame own others evaluated
  rw [cleared] at frame own others evaluated taken
  refine ⟨u, _, taken, frame, fun i => ?_, others, evaluated⟩
  intro c x d refused ownPulse writes
  have refuses : d.refused (s.profile c) src = true ↔ refused := DemandItem.refused_iff ..
  have wrote : d.writes (x.demand.list.net.get src) = true ↔ writes := DemandItem.writes_iff ..
  have took : u.chan c = x.took (s.profile c) src d s.now (s.now + 100 * s.cfg.lapse.get src) s.graceStart.isSome := own i
  unfold ChannelState.took at took
  by_cases h : refused
  · rw [if_pos (refuses.2 h)] at took
    refine ⟨?_, fun _ => took, fun k => absurd h k⟩
    rw [took]
    exact ⟨.inl, fun k => k.resolve_right fun k => k.1 h⟩
  · rw [if_neg fun k => h (refuses.1 k)] at took
    refine ⟨?_, fun k => absurd k h, fun _ => ?_⟩
    · rw [took]
      dsimp only
      rw [Bool.or_eq_true, Bool.and_eq_true, wrote, Option.isSome_iff_ne_none]
      exact or_congr_right ⟨fun k => ⟨h, k⟩, fun k => k.2⟩
    · rw [took]

end Sys2Proof.Machine
end

section
/-! SUPPORT. The three resets, block by block: what the load and the end of a start grace of 0 leave of the values a reset
sets (R17 to R21, R94, R118, R179, R180). -/

namespace Sys2Proof.Machine

/-! ### The load, and the start grace after it (R18, R38) -/

theorem State.imageAfterReset_eq (s : State) : s.imageAfterReset = s.imageKept := by
  unfold State.imageAfterReset State.imageKept
  cases s.store <;> rfl

theorem exec_resetCommand (k : ResetCause) (pins : ResetPins) (s : State) :
    exec (resetCommand k pins) s = .next (s.afterReset k pins) := by
  cases k <;> rfl

theorem State.startGraceAtReset_frame (s : State) : s.startGraceAtReset = { s with
    graceStart := s.startGraceAtReset.graceStart, chans := s.startGraceAtReset.chans
    queue := s.startGraceAtReset.queue, gens := s.startGraceAtReset.gens } := by
  unfold State.startGraceAtReset
  split
  · obtain ⟨frame, -⟩ := s.graceEnded_endGrace
    generalize s.endGrace = t at frame ⊢
    rw [frame]
  · rfl

theorem State.reportLoad_frame (s : State) : s.reportLoad = { s with
    faults := if s.image.accepted then s.faults else s.faults.occur s.now .configDefaulted } := by
  unfold State.reportLoad
  split <;> rfl

/-- What a reset leaves, but for the channels, the queue, the generators and the start-grace wait. -/
theorem State.afterReset_frame (s : State) (k : ResetCause) (pins : ResetPins) : s.afterReset k pins = { s.resetTo k pins with
    faults := if s.imageKept.accepted then s.faultsAfterReset k
      else (s.faultsAfterReset k).occur s.now .configDefaulted
    graceStart := (s.afterReset k pins).graceStart, chans := (s.afterReset k pins).chans
    queue := (s.afterReset k pins).queue, gens := (s.afterReset k pins).gens } := by
  have load := (s.resetTo k pins).reportLoad_frame
  have grace := (s.resetTo k pins).reportLoad.startGraceAtReset_frame
  rw [s.afterReset_eq k pins, ← s.imageAfterReset_eq]
  generalize (s.resetTo k pins).reportLoad = r at load grace ⊢
  generalize r.startGraceAtReset = t at grace ⊢
  rw [grace, load]
  rfl

/-! ### Store, cause and configuration (R18 to R21) -/

theorem State.imageKept_accepted {s : State} (h : s.store ≠ .idle) : s.imageKept.accepted = false := by
  unfold State.imageKept
  rw [if_neg h]
  rfl

theorem ResetCourse.kind_cases (x : ResetCourse) : (x.powerApplied = true → x.kind = .powerOn)
    ∧ (x.powerApplied = false → x.supplyFell = true → x.kind = .supplyDip)
    ∧ (x.powerApplied = false → x.supplyFell = false → x.kind = .external) := by
  obtain ⟨power, supply, pin⟩ := x
  unfold ResetCourse.kind
  cases power <;> cases supply <;> simp

/-- Settles O19: the frame of a reset, and the kind that decides which is taken. -/
theorem resetLoadsConfiguration : Obligations.ResetLoadsConfiguration := by
  refine ⟨fun k pins s => ?_, fun x pins s => ?_⟩
  · have frame := s.afterReset_frame k pins
    have taken := exec_resetCommand k pins s
    generalize s.afterReset k pins = t at frame taken
    have cfg : t.cfg = s.imageKept.load := by rw [frame, ← s.imageAfterReset_eq]; rfl
    have image : t.image = s.imageKept := by rw [frame, ← s.imageAfterReset_eq]; rfl
    refine ⟨t, taken, by rw [frame]; rfl, by rw [frame]; rfl, image, ?_, fun abandoned => ?_⟩
    · rw [cfg, image]; rfl
    · rw [cfg]
      exact if_neg (Bool.eq_false_iff.1 (State.imageKept_accepted abandoned))
  · refine ⟨x.kind, s.afterReset x.kind pins, exec_resetCommand x.kind pins s, exec_resetCommand x.kind pins s, ?_, x.kind_cases⟩
    rw [s.afterReset_frame x.kind pins]
    rfl

/-! ### The fault list (R179, R180) -/

/-- Settles O20: the list each kind of reset sets, and the report of the load. -/
theorem resetKeepsFaults : Obligations.ResetKeepsFaults := by
  intro pins s
  have faults (k : ResetCause) : (s.afterReset k pins).faults =
      if s.imageKept.accepted then s.faultsAfterReset k else (s.faultsAfterReset k).occur s.now .configDefaulted :=
    congrArg State.faults (s.afterReset_frame k pins)
  have emptied : (⟨[], false, 0, s.now, ⟨s.now, ⟨[], false⟩, []⟩⟩ : FaultList).occur s.now .configDefaulted =
      ⟨[⟨.configDefaulted, 0, 0, 1, false⟩], false, 0, s.now, ⟨s.now, ⟨[], false⟩, [⟨0, [.occur .configDefaulted]⟩]⟩⟩ := by
    refine (FaultList.report_cons ..).trans ?_
    rw [show FaultList.joined ⟨[], false, 0, s.now, ⟨s.now, ⟨[], false⟩, []⟩⟩ s.now ⟨0, [.occur .configDefaulted]⟩ =
      ⟨s.now, ⟨[], false⟩, [⟨0, [.occur .configDefaulted]⟩]⟩ from if_pos rfl]
    rfl
  refine ⟨fun k other => ⟨_, exec_resetCommand k pins s, ?_⟩, _, rfl, ?_⟩
  · have list : s.faultsAfterReset k = ⟨[], false, 0, s.now, ⟨s.now, ⟨[], false⟩, []⟩⟩ := by
      cases k with
      | powerOn => rfl
      | supplyDip => rfl
      | external => exact absurd rfl other
    rw [faults, list, emptied]
  · have keeps (r : FaultRecord) : s.keepsActive r.key =
        match r.key with
        | .lockout c => (s.chan c).prot.state.locked
        | .emergency => s.latch
        | _ => false := by
      unfold State.keepsActive
      cases r.key <;> rfl
    intro records kept
    have list : s.faultsAfterReset .external = kept := by
      unfold State.faultsAfterReset
      simp only [keeps]
      rfl
    exact (faults .external).trans (by rw [list])

/-! ### Protection (R94, R118) -/

/-- An end of a start grace of 0 keeps what R118 says of a channel's protection. -/
theorem State.afterReset_prot (s : State) (k : ResetCause) (pins : ResetPins) (c : Channel) :
    let p := (s.chan c).prot.afterReset k s.imageAfterReset.load.profile[c] s.now
    ∃ run on wait off, ((s.afterReset k pins).chan c).prot =
      { p with stableRun := run, onCount := on, offWait := wait, offCount := off } := by
  intro p
  have start : (s.resetTo k pins).reportLoad.chan c = (s.resetTo k pins).chan c := by rw [State.reportLoad_frame]; rfl
  have prot : ((s.resetTo k pins).reportLoad.chan c).prot = p := by rw [start, State.resetTo_chan]
  rw [s.afterReset_eq k pins]
  unfold State.startGraceAtReset
  split
  · obtain ⟨-, ended⟩ := (s.resetTo k pins).reportLoad.graceEnded_endGrace
    obtain ⟨-, -, -, -, -, -, kept⟩ := ended c
    exact ⟨_, _, _, _, kept.trans (by rw [← prot])⟩
  · exact ⟨_, _, _, _, prot⟩

/-- Settles O21: the protection record of each kind of reset, under the profile that was loaded. -/
theorem resetProtection : Obligations.ResetProtection := by
  intro k pins s
  have frame := s.afterReset_frame k pins
  have prot := s.afterReset_prot k pins
  have taken := exec_resetCommand k pins s
  generalize s.afterReset k pins = t at frame prot taken
  have cfg : t.cfg = s.imageAfterReset.load := by rw [frame]; rfl
  have sup : t.sup = s.sup.afterReset k s.imageAfterReset.load.zone s.now := by rw [frame]; rfl
  rw [← cfg] at prot sup
  refine ⟨t, taken, fun c => ?_, fun h => ⟨?_, fun c => ?_⟩, fun h => ⟨?_, fun c => ?_⟩, fun h => ⟨?_, fun c => ?_⟩⟩
  · obtain ⟨run, on, wait, off, eq⟩ := prot c
    rw [eq]
    cases k <;> exact ⟨rfl, rfl, rfl, rfl⟩
  · rw [sup, h]; rfl
  · obtain ⟨run, on, wait, off, eq⟩ := prot c
    rw [eq, h]
    exact ⟨rfl, rfl, rfl⟩
  · rw [sup, h]; rfl
  · obtain ⟨run, on, wait, off, eq⟩ := prot c
    rw [eq, h]
    exact ⟨rfl, rfl, rfl⟩
  · rw [sup, h]; rfl
  · obtain ⟨run, on, wait, off, eq⟩ := prot c
    rw [eq, h]
    refine ⟨rfl, rfl, fun other => ?_, fun d was => ?_⟩
    · change (s.chan c).prot.state.restarted _ _ = _
      cases state : (s.chan c).prot.state with
      | trippedShort d => exact absurd state (other d)
      | _ => rfl
    · change (s.chan c).prot.state.restarted _ _ = _
      rw [was]; rfl

/-! ### The other blocks -/

/-- Settles O22: the frame of a reset; the channels as the reset sets them, and with a start grace of 0 the FALLBACK
entries of its end. -/
theorem resetBlockValues : Obligations.ResetBlockValues := by
  intro k pins s
  have frame := s.afterReset_frame k pins
  have start := (s.resetTo k pins).reportLoad_frame
  have grace : s.afterReset k pins = (s.resetTo k pins).reportLoad.startGraceAtReset := s.afterReset_eq k pins
  have taken := exec_resetCommand k pins s
  have chan (c : Channel) : (s.resetTo k pins).reportLoad.chan c = { ChannelState.atReset s.now with
      prot := (s.chan c).prot.afterReset k s.imageAfterReset.load.profile[c] s.now } := by
    rw [start]; exact State.resetTo_chan s k pins c
  unfold State.startGraceAtReset at grace
  have ended := (s.resetTo k pins).reportLoad.graceEnded_endGrace
  generalize (s.resetTo k pins).reportLoad.endGrace = e at grace ended
  generalize (s.resetTo k pins).reportLoad = r at start grace chan ended
  generalize s.afterReset k pins = t at frame grace taken
  have cfg : r.cfg = t.cfg := by rw [start, frame]
  have fresh {c : Channel} (h : t.chan c = r.chan c) : t.chan c =
      { demand := ⟨⟨⟨none, none, none, none⟩, none, none⟩, none, false⟩
        arb := ⟨none, .off, CauseSet.empty, CauseSet.empty⟩
        sense := ⟨0, false, false, 0, .voltage⟩
        prot :=
          { heat := (t.chan c).prot.heat, state := (t.chan c).prot.state, retries := (t.chan c).prot.retries
            stableRun := none, onCount := 0, offWait := .since s.now, offCount := 0, openLoadOn := false
            openLoadOff := false, shortToSupply := false, lastTick := s.now }
        sw := ⟨.off, .off, none, none⟩ } := by
    rw [h, chan]
    cases k <;> rfl
  refine ⟨t, taken, by rw [frame]; rfl, by rw [frame]; rfl, by rw [frame]; cases k <;> rfl, fun i => ?_, ?_, ?_, ?_,
    by rw [frame]; rfl, by rw [frame]; rfl, by rw [frame]; rfl, by rw [frame]; rfl, by rw [frame]; rfl, by rw [frame]; rfl,
    fun wait => ?_, fun nothing => ?_⟩
  · rw [frame]
    refine (Vector.getElem_ofFn ..).trans (congrArg (LineRecord.mk _ _) ?_)
    exact if_congr beq_iff_eq rfl rfl
  · rw [frame]
    change LineRecord.atReset _ _ _ = _
    unfold LineRecord.atReset
    cases pins.emg <;> rfl
  · rw [frame]; rfl
  · rw [frame]
    cases k <;> rfl
  · have eq : t = r := grace.trans (if_neg (by rw [cfg]; exact wait))
    refine ⟨by rw [eq, start]; rfl, by rw [eq, start]; rfl, fun p => ?_, fun c => fresh (by rw [eq])⟩
    rw [eq, start]
    exact Vector.getElem_replicate ..
  · have eq : t = e := grace.trans (if_pos (by rw [cfg]; exact nothing))
    rw [← eq] at ended
    obtain ⟨form, channels⟩ := ended
    refine ⟨by rw [form], fun c => ?_⟩
    obtain ⟨receives, others, -⟩ := channels c
    have demand : (r.chan c).demand = ⟨DemandList.empty, none, false⟩ := by rw [chan]; rfl
    have profile : r.profile c = t.profile c := by unfold State.profile; rw [cfg]
    rw [demand, profile] at receives others
    refine ⟨fun other => fresh ((others fun h => other h.2.2.2).resolve_right fun h => ?_), fun on => ?_⟩
    · have empty : r.queue = ⟨[], [], none⟩ := by rw [start]; rfl
      rw [empty] at h
      exact h.1.elim List.not_mem_nil List.not_mem_nil
    · obtain ⟨list, settled⟩ := receives ⟨rfl, rfl, rfl, on⟩
      exact ⟨settled, list⟩

end Sys2Proof.Machine
end

section
/-! SUPPORT. The protection unit: what a fuse tick, an on-state and an off-state sample write of the protection record of
their channel and report to the fault list (R80 to R116). -/

namespace Sys2Proof.Machine

/-! ### One protection record and the fault list -/

/-- The state with the protection record of a channel and the fault list replaced. -/
def State.withRecord (s : State) (c : Channel) (r : ProtRecord) (l : FaultList) : State :=
  ({ s with faults := l } : State).setChan c { s.chan c with prot := r }

section
variable (s : State) (c : Channel) (r : ProtRecord) (l : FaultList)

@[simp] theorem State.withRecord_chan_self : (s.withRecord c r l).chan c = { s.chan c with prot := r } :=
  State.chan_setChan_self ..

theorem State.withRecord_chan_ne {d : Channel} (h : d ≠ c) : (s.withRecord c r l).chan d = s.chan d :=
  State.chan_setChan_ne _ _ h

@[simp] theorem State.withRecord_now : (s.withRecord c r l).now = s.now := rfl
@[simp] theorem State.withRecord_faults : (s.withRecord c r l).faults = l := rfl
@[simp] theorem State.withRecord_profile (d : Channel) : (s.withRecord c r l).profile d = s.profile d := rfl

theorem State.withRecord_withRecord (r' : ProtRecord) (l' : FaultList) :
    (s.withRecord c r l).withRecord c r' l' = s.withRecord c r' l' := by
  unfold State.withRecord
  rw [State.chan_setChan_self]
  exact State.setChan_setChan ({ s with faults := l' } : State) c _ _

theorem State.withRecord_same : s.withRecord c (s.chan c).prot s.faults = s := s.setChan_chan c

theorem State.withProt_eq (f : ProtRecord → ProtRecord) : s.withProt c f = s.withRecord c (f (s.chan c).prot) s.faults := rfl

theorem State.withRecord_withProt (f : ProtRecord → ProtRecord) :
    (s.withRecord c r l).withProt c f = s.withRecord c (f r) l := by
  rw [State.withProt_eq, State.withRecord_withRecord, State.withRecord_chan_self, State.withRecord_faults]

theorem State.withRecord_occur (k : FaultKey) :
    (s.withRecord c r l).occur k = s.withRecord c r (l.occur s.now k) := rfl

theorem State.withRecord_finish (k : FaultKey) :
    (s.withRecord c r l).finish k = s.withRecord c r (l.finish s.now k) := rfl

end

/-! ### Trips and exits (R96 to R105) -/

/-- A trip of a kind while retries remain leads to TRIPPED. -/
theorem State.trip_of_lt {s : State} {c : Channel} (k : TripKind) (h : (s.chan c).prot.retries < (s.profile c).retryLimit) :
    s.trip c k = s.withRecord c { (s.chan c).prot with
        state := k.tripped s.now (s.profile c).retryLength, stableRun := none } (s.faults.occur s.now (k.key c)) := if_pos h

/-- A trip of a kind with no retry left leads to LOCKOUT. -/
theorem State.trip_of_le {s : State} {c : Channel} (k : TripKind) (h : (s.profile c).retryLimit ≤ (s.chan c).prot.retries) :
    s.trip c k = s.withRecord c { (s.chan c).prot with state := .lockout k, stableRun := none }
      (s.faults.report s.now [.occur (k.key c), .occur (.lockout c)]) := if_neg (Nat.not_lt.2 h)

/-- The comparison of R97 trips a channel with this record and profile. -/
def ProtRecord.Trips (r : ProtRecord) (p : Profile) : Prop :=
  (r.state = .ready ∨ r.state = .warm) ∧ p.trip * 2 ^ p.decayShift ≤ r.heat

/-- The comparison of R97 makes a channel with this record and profile leave TRIPPED. -/
def ProtRecord.Exits (r : ProtRecord) (p : Profile) : Prop :=
  (r.state = .trippedOverload ∧ r.heat < p.warm * 2 ^ (p.decayShift - 1))
    ∨ (r.state = .trippedShort .expired ∧ r.heat < p.trip * 2 ^ p.decayShift)

theorem ProtRecord.not_exits_of_trips {r : ProtRecord} {p : Profile} (h : r.Trips p) : ¬r.Exits p := by
  rcases h.1 with free | free <;> unfold ProtRecord.Exits <;> rw [free] <;> simp

/-- The state of a record that neither trips nor leaves TRIPPED, after the comparison of R97. -/
def ProtRecord.compared (r : ProtRecord) (p : Profile) : ProtState :=
  if r.state = .ready ∧ p.warm * 2 ^ p.decayShift ≤ r.heat then .warm
  else if r.state = .warm ∧ r.heat < 7 * p.warm * 2 ^ p.decayShift / 8 then .ready
  else r.state

theorem State.compareLevels_of_trips {s : State} {c : Channel} (h : (s.chan c).prot.Trips (s.profile c)) :
    s.compareLevels c = s.trip c .overload := by
  obtain ⟨free, hot⟩ := h
  unfold State.compareLevels
  rcases free with free | free <;> rw [free] <;> exact if_pos hot

theorem State.compareLevels_of_exits {s : State} {c : Channel} (h : (s.chan c).prot.Exits (s.profile c)) :
    s.compareLevels c = s.exitTrip c := by
  unfold State.compareLevels
  rcases h with ⟨kind, cool⟩ | ⟨kind, cool⟩ <;> rw [kind] <;> exact if_pos cool

theorem State.compareLevels_of_stays {s : State} {c : Channel} (trips : ¬(s.chan c).prot.Trips (s.profile c))
    (exits : ¬(s.chan c).prot.Exits (s.profile c)) :
    s.compareLevels c = s.withProt c fun r => { r with state := r.compared (s.profile c) } := by
  have moved (q : ProtState) (h : (s.chan c).prot.compared (s.profile c) = q) :
      (s.withProt c fun r => { r with state := q }) = s.withProt c fun r => { r with state := r.compared (s.profile c) } := by
    subst h; rfl
  have same (h : (s.chan c).prot.compared (s.profile c) = (s.chan c).prot.state) :
      s = s.withProt c fun r => { r with state := r.compared (s.profile c) } := (s.setChan_chan c).symm.trans (moved _ h)
  unfold ProtRecord.Trips at trips
  unfold ProtRecord.Exits at exits
  unfold State.compareLevels
  cases state : (s.chan c).prot.state with
  | ready =>
    rw [state] at trips
    refine (if_neg fun hot => trips ⟨.inl rfl, hot⟩).trans ?_
    split
    · next warm => exact moved _ (if_pos ⟨state, warm⟩)
    · next cold =>
      refine same ?_
      unfold ProtRecord.compared
      rw [state]
      exact (if_neg fun h => cold h.2).trans (if_neg fun h => nomatch h.1)
  | warm =>
    rw [state] at trips
    refine (if_neg fun hot => trips ⟨.inr rfl, hot⟩).trans ?_
    split
    · next cool =>
      refine moved _ ?_
      unfold ProtRecord.compared
      rw [state, if_neg fun h => nomatch h.1]
      exact if_pos ⟨rfl, cool⟩
    · next warm =>
      refine same ?_
      unfold ProtRecord.compared
      rw [state, if_neg fun h => nomatch h.1]
      exact if_neg fun h => warm h.2
  | trippedOverload =>
    rw [state] at exits
    refine (if_neg fun cool => exits (.inl ⟨rfl, cool⟩)).trans (same ?_)
    unfold ProtRecord.compared
    rw [state]
    simp
  | trippedShort d =>
    have still : s = s.withProt c fun r => { r with state := r.compared (s.profile c) } := same (by
      unfold ProtRecord.compared
      rw [state]
      simp)
    cases d with
    | running => exact still
    | expired =>
      rw [state] at exits
      exact (if_neg fun cool => exits (.inr ⟨rfl, cool⟩)).trans still
  | lockout k =>
    refine same ?_
    unfold ProtRecord.compared
    rw [state]
    simp

/-! ### Fuse ticks (R80 to R85, R97) -/

/-- The protection record after a fuse tick at a moment, with its state, retry counter and stable run as given. -/
def State.tickedRecord (s : State) (c : Channel) (state : ProtState) (retries : Nat) (run : Option Moment) : ProtRecord :=
  { (s.chan c).prot with
    heat := heatStep (s.profile c).decayShift (s.powerOf c) (s.chan c).prot.heat
    lastTick := max s.now ((s.chan c).prot.lastTick + 10), state := state, retries := retries, stableRun := run }

/-- A fuse tick before its evaluation: the record of R97 and R85, and the reports. -/
structure State.Ticks (s : State) (c : Channel) (state : ProtState) (retries : Nat) (run : Option Moment) (l : FaultList) : Prop
    where
  eq : (s.fuseTicked c).fuseCompared c =
    (s.advanceTo ((s.chan c).prot.lastTick + 10)).withRecord c (s.tickedRecord c state retries run) l

theorem State.fuseTicked_eq (s : State) (c : Channel) : s.fuseTicked c =
    (s.advanceTo ((s.chan c).prot.lastTick + 10)).withRecord c
      { (s.chan c).prot with lastTick := max s.now ((s.chan c).prot.lastTick + 10) } s.faults := rfl

theorem State.fuseTicked_chan (s : State) (c : Channel) : (s.fuseTicked c).chan c = { s.chan c with
    prot := { (s.chan c).prot with lastTick := max s.now ((s.chan c).prot.lastTick + 10) } } := by
  rw [State.fuseTicked_eq, State.withRecord_chan_self]
  rfl

theorem State.powerOf_withRecord (s : State) (c : Channel) (m : Moment) (r : ProtRecord) (l : FaultList) :
    ((s.advanceTo m).withRecord c r l).powerOf c = s.powerOf c := by
  have chan : ((s.advanceTo m).withRecord c r l).chan c = { s.chan c with prot := r } := State.withRecord_chan_self ..
  unfold State.powerOf State.conduction
  rw [chan]
  rfl

/-- The comparison as an update of the record, and after it the update of H. -/
theorem State.ticks_of_compared {s : State} {c : Channel} {state : ProtState} {retries : Nat} {run : Option Moment}
    {l : FaultList} (h : (s.fuseTicked c).compareLevels c = (s.fuseTicked c).withRecord c { ((s.fuseTicked c).chan c).prot with
      state := state, retries := retries, stableRun := run } l) : s.Ticks c state retries run l := by
  refine ⟨?_⟩
  unfold State.fuseCompared
  rw [h, State.withRecord_withProt, State.fuseTicked_eq, State.withRecord_withRecord, State.powerOf_withRecord,
    State.withRecord_chan_self]
  rfl

section
variable {s : State} {c : Channel}

theorem State.ticks_of_trips_lt (h : (s.chan c).prot.Trips (s.profile c))
    (left : (s.chan c).prot.retries < (s.profile c).retryLimit) :
    s.Ticks c .trippedOverload (s.chan c).prot.retries none
      (s.faults.occur (max s.now ((s.chan c).prot.lastTick + 10)) (.overloadTrip c)) := by
  have chan := s.fuseTicked_chan c
  refine State.ticks_of_compared ?_
  rw [State.compareLevels_of_trips (by rw [chan]; exact h), State.trip_of_lt _ (by rw [chan]; exact left), chan]
  rfl

theorem State.ticks_of_trips_le (h : (s.chan c).prot.Trips (s.profile c))
    (spent : (s.profile c).retryLimit ≤ (s.chan c).prot.retries) :
    s.Ticks c (.lockout .overload) (s.chan c).prot.retries none
      (s.faults.report (max s.now ((s.chan c).prot.lastTick + 10)) [.occur (.overloadTrip c), .occur (.lockout c)]) := by
  have chan := s.fuseTicked_chan c
  refine State.ticks_of_compared ?_
  rw [State.compareLevels_of_trips (by rw [chan]; exact h), State.trip_of_le _ (by rw [chan]; exact spent), chan]
  rfl

theorem State.ticks_of_exits (h : (s.chan c).prot.Exits (s.profile c)) :
    s.Ticks c (if (s.profile c).warm * 2 ^ (s.profile c).decayShift ≤ (s.chan c).prot.heat then .warm else .ready)
      (if (s.chan c).prot.retries < (s.profile c).retryLimit then (s.chan c).prot.retries + 1 else (s.chan c).prot.retries)
      (s.chan c).prot.stableRun s.faults := by
  have chan := s.fuseTicked_chan c
  refine State.ticks_of_compared ?_
  rw [State.compareLevels_of_exits (by rw [chan]; exact h)]
  unfold State.exitTrip
  rw [State.withProt_eq, chan]
  rfl

theorem State.ticks_of_stays (trips : ¬(s.chan c).prot.Trips (s.profile c)) (exits : ¬(s.chan c).prot.Exits (s.profile c)) :
    s.Ticks c ((s.chan c).prot.compared (s.profile c)) (s.chan c).prot.retries (s.chan c).prot.stableRun s.faults := by
  have chan := s.fuseTicked_chan c
  refine State.ticks_of_compared ?_
  rw [State.compareLevels_of_stays (by rw [chan]; exact trips) (by rw [chan]; exact exits), State.withProt_eq, chan]
  rfl

end

/-- What a fuse tick makes of s: its record written and its reports made, and the channel evaluated if its state moved. -/
structure State.TickMakes (s t : State) (c : Channel) (q : ProtState) (n : Nat) (run : Option Moment)
    (l : FaultList) : Prop where
  frame : t = { s with
    now := max s.now ((s.chan c).prot.lastTick + 10), chans := t.chans, queue := t.queue, gens := t.gens, faults := l }
  state : (t.chan c).prot.state = q
  retries : (t.chan c).prot.retries = n
  heat : (t.chan c).prot.heat = heatStep (s.profile c).decayShift (s.powerOf c) (s.chan c).prot.heat
  lastTick : (t.chan c).prot.lastTick = max s.now ((s.chan c).prot.lastTick + 10)
  list : (t.chan c).demand.list = (s.chan c).demand.list
  others : ∀ d : Channel, d ≠ c → s.SameOrAdmitted t d
  still : q = (s.chan c).prot.state →
    t = (s.advanceTo ((s.chan c).prot.lastTick + 10)).withRecord c (s.tickedRecord c q n run) l
  moved : q ≠ (s.chan c).prot.state →
    ((s.advanceTo ((s.chan c).prot.lastTick + 10)).withRecord c (s.tickedRecord c q n run) l).EvaluatesTo t [c]

theorem State.Ticks.makes {s : State} {c : Channel} {state : ProtState} {retries : Nat} {run : Option Moment} {l : FaultList}
    (h : s.Ticks c state retries run l) :
    ∃ t, exec (.fuseTick c) s = .next t ∧ s.TickMakes t c state retries run l := by
  let v := (s.advanceTo ((s.chan c).prot.lastTick + 10)).withRecord c (s.tickedRecord c state retries run) l
  have own : v.chan c = { s.chan c with prot := s.tickedRecord c state retries run } := State.withRecord_chan_self ..
  have other (d : Channel) (hd : d ≠ c) : v.chan d = s.chan d := State.withRecord_chan_ne _ c _ _ hd
  have before : ((s.fuseTicked c).chan c).prot.state = (s.chan c).prot.state := by
    rw [State.fuseTicked_eq, State.withRecord_chan_self]
  have eq : ((s.fuseTicked c).fuseCompared c).evaluateMoved (s.fuseTicked c) c =
      if state = (s.chan c).prot.state then v else v.evaluate c := by
    unfold State.evaluateMoved
    rw [h.eq, before]
    exact if_congr (by rw [own]; exact Iff.rfl) rfl rfl
  refine ⟨_, (exec_fuseTick s c).trans (congrArg _ eq), ?_⟩
  by_cases same : state = (s.chan c).prot.state
  · rw [if_pos same]
    exact ⟨rfl, by rw [own]; rfl, by rw [own]; rfl, by rw [own]; rfl, by rw [own]; rfl, by rw [own],
      fun d hd => .inl (other d hd), fun _ => rfl, fun k => absurd same k⟩
  · rw [if_neg same]
    obtain ⟨row, frame, kept, others, settled⟩ := evaluateEach_evaluatesTo v [c]
    change v.evaluate c = _ at row
    change v.SameButChannels (v.evaluate c) at frame
    change ∀ d, (v.chan d).Kept ((v.evaluate c).chan d) at kept
    change ∀ d, d ∉ [c] → v.SameOrAdmitted (v.evaluate c) d at others
    change ∀ d ∈ [c], (v.evaluate c).Settled d at settled
    obtain ⟨list, -, -, -, prot⟩ := kept c
    rw [own] at list prot
    generalize v.evaluate c = t at row frame kept others settled list prot
    exact ⟨frame, by rw [prot]; rfl, by rw [prot]; rfl, by rw [prot]; rfl, by rw [prot]; rfl, list,
      fun d hd => (others d (by simpa using hd)).of_eq (other d hd) rfl, fun k => absurd k same,
      fun _ => ⟨row, frame, kept, others, settled⟩⟩

/-- Every fuse tick trips its channel, lets it leave TRIPPED, or compares its levels. -/
theorem State.exists_tickMakes (s : State) (c : Channel) : ∃ state retries run l t,
    exec (.fuseTick c) s = .next t ∧ s.TickMakes t c state retries run l := by
  by_cases trips : (s.chan c).prot.Trips (s.profile c)
  · by_cases left : (s.chan c).prot.retries < (s.profile c).retryLimit
    · exact ⟨_, _, _, _, (State.ticks_of_trips_lt trips left).makes⟩
    · exact ⟨_, _, _, _, (State.ticks_of_trips_le trips (Nat.le_of_not_lt left)).makes⟩
  · by_cases exits : (s.chan c).prot.Exits (s.profile c)
    · exact ⟨_, _, _, _, (State.ticks_of_exits exits).makes⟩
    · exact ⟨_, _, _, _, (State.ticks_of_stays trips exits).makes⟩

/-- The conduction fraction by output state and generator. -/
theorem State.conduction_eq (s : State) (c : Channel) : s.conduction c =
    match (s.chan c).sw.out with
    | .off => 0
    | .waiting => 0
    | .inrush _ => 1000
    | .steady _ _ => 1000
    | .pwm _ on _ _ => if on < 2 then 0 else if (s.profile c).period - on < 2 then 1000 else 1000 * on / (s.profile c).period
    | .flash f => match s.gens[f].state with
      | .running .on _ _ _ => 1000
      | _ => 0 := by
  unfold State.conduction
  cases (s.chan c).sw.out with
  | flash f =>
    dsimp only
    unfold State.patternOn Generator.isOn
    rcases s.gens[f].state with _ | ⟨_ | _, _, _, _⟩ <;> rfl
  | _ => rfl

/-- Settles O38: whatever the comparison does, the update of H is R85's. -/
theorem fuseTickUpdatesHeat : Obligations.FuseTickUpdatesHeat := by
  intro s c p h q fraction
  obtain ⟨state, retries, run, l, t, taken, makes⟩ := s.exists_tickMakes c
  have power : s.powerOf c = q ^ 2 * fraction / 1000 := by
    unfold State.powerOf powerTerm
    rw [State.conduction_eq]
    rfl
  refine ⟨t, taken, ?_, ?_, ?_, makes.list, makes.others⟩
  · have frame := makes.frame
    rw [frame]
  · rw [makes.heat, power]
    rfl
  · rw [makes.lastTick]
    have frame := makes.frame
    rw [frame]

/-- The record and the reports of a tick, as the obligation spells them. -/
theorem State.TickMakes.spelled {s t : State} {c : Channel} {state : ProtState} {retries : Nat} {run : Option Moment}
    {l : FaultList} (h : s.TickMakes t c state retries run l) :
    let now' := max s.now ((s.chan c).prot.lastTick + 10)
    let u := ({ s with now := now', faults := t.faults } : State).setChan c { s.chan c with
      prot := { (s.chan c).prot with
        heat := (t.chan c).prot.heat, lastTick := now', state := (t.chan c).prot.state
        retries := (t.chan c).prot.retries, stableRun := run } }
    ((t.chan c).prot.state = (s.chan c).prot.state → t = u) ∧ ((t.chan c).prot.state ≠ (s.chan c).prot.state → u.EvaluatesTo t [c]) := by
  intro now' u
  have faults : t.faults = l := by rw [h.frame]
  have same : u = (s.advanceTo ((s.chan c).prot.lastTick + 10)).withRecord c (s.tickedRecord c state retries run) l := by
    unfold u
    rw [h.heat, h.state, h.retries, faults]
    rfl
  rw [h.state, same]
  exact ⟨h.still, h.moved⟩

/-- Settles O39: the four kinds of tick, each with the clauses that speak of it. -/
theorem fuseTickMovesState : Obligations.FuseTickMovesState := by
  intro s c p r tripLevel warmLevel now' trips exits
  by_cases h : trips
  · have unexited : ¬exits := ProtRecord.not_exits_of_trips (r := r) (p := p) h
    have run : (if trips then none else r.stableRun) = none := if_pos h
    by_cases left : r.retries < p.retryLimit
    · obtain ⟨t, taken, makes⟩ := (State.ticks_of_trips_lt (s := s) (c := c) h left).makes
      have faults : t.faults = s.faults.occur now' (.overloadTrip c) := by rw [makes.frame]
      refine ⟨t, taken, fun _ _ => ⟨makes.state, faults⟩, fun _ spent => absurd left (Nat.not_lt.2 spent),
        fun k => absurd k unexited, fun k => absurd k unexited, fun _ _ cold => absurd h.2 (Nat.not_le.2 cold),
        fun _ _ cold => absurd h.2 (Nat.not_le.2 cold), fun k => absurd h k, fun _ => makes.retries, fun k => absurd h k, ?_⟩
      rw [run]
      exact makes.spelled
    · obtain ⟨t, taken, makes⟩ := (State.ticks_of_trips_le (s := s) (c := c) h (Nat.le_of_not_lt left)).makes
      have faults : t.faults = s.faults.report now' [.occur (.overloadTrip c), .occur (.lockout c)] := by rw [makes.frame]
      refine ⟨t, taken, fun _ k => absurd k left, fun _ _ => ⟨makes.state, faults⟩,
        fun k => absurd k unexited, fun k => absurd k unexited, fun _ _ cold => absurd h.2 (Nat.not_le.2 cold),
        fun _ _ cold => absurd h.2 (Nat.not_le.2 cold), fun k => absurd h k, fun _ => makes.retries, fun k => absurd h k, ?_⟩
      rw [run]
      exact makes.spelled
  · have run : (if trips then none else r.stableRun) = r.stableRun := if_neg h
    by_cases e : exits
    · have other (q : ProtState) (free : q.free = true) : r.state ≠ q := by
        rcases e with ⟨kind, -⟩ | ⟨kind, -⟩ <;> rw [kind] <;> rintro rfl <;> cases free
      obtain ⟨t, taken, makes⟩ := (State.ticks_of_exits (s := s) (c := c) e).makes
      have faults : t.faults = s.faults := by rw [makes.frame]
      refine ⟨t, taken, fun k => absurd k h, fun k => absurd k h, fun _ => makes.state, fun _ => makes.retries,
        fun k => absurd k (other .ready rfl), fun k => absurd k (other .warm rfl), fun _ k => absurd e k,
        fun k => absurd e k, fun _ => faults, ?_⟩
      rw [run]
      exact makes.spelled
    · obtain ⟨t, taken, makes⟩ := (State.ticks_of_stays (s := s) (c := c) h e).makes
      have faults : t.faults = s.faults := by rw [makes.frame]
      have state : (t.chan c).prot.state = r.compared p := makes.state
      unfold ProtRecord.compared at state
      refine ⟨t, taken, fun k => absurd k h, fun k => absurd k h, fun k => absurd k e, fun k => absurd k e,
        fun ready warm _ => state.trans (if_pos ⟨ready, warm⟩), fun warm cool _ => ?_, fun _ _ cold warm => ?_,
        fun _ => makes.retries, fun _ => faults, ?_⟩
      · have unready : r.state ≠ .ready := fun k => absurd (warm.symm.trans k) nofun
        exact state.trans ((if_neg fun k => unready k.1).trans (if_pos ⟨warm, cool⟩))
      · exact state.trans ((if_neg fun k => Nat.not_le.2 (cold k.1) k.2).trans (if_neg fun k => Nat.not_lt.2 (warm k.1) k.2))
      · rw [run]
        exact makes.spelled

end Sys2Proof.Machine
end

section
/-! SUPPORT. The samples of the protection unit (R99 to R101, R112 to R116), the timers that only expire, and the scanner
that delivers the samples (R68 to R76). -/

namespace Sys2Proof.Machine

/-! ### On-state samples (R99 to R101, R112) -/

theorem ProtState.free_iff (p : ProtState) : p.free = true ↔ p = .ready ∨ p = .warm := by
  unfold ProtState.free
  cases p <;> simp

/-- The short test of R100 and R101, by whether an allowance is in force. -/
theorem shortTest_iff (s : State) (c : Channel) (saturated : Bool) (q ratio : Nat) :
    shortTest (s.allowanceInForce c) saturated q ratio = true ↔
      if (s.chan c).sw.allowance = none then saturated = true ∨ ratio ≤ q else saturated = false ∧ min (2 * ratio) 1023 ≤ q := by
  unfold shortTest State.allowanceInForce
  cases (s.chan c).sw.allowance with
  | none => simp
  | some => simp

/-- A short test that is met. -/
def State.ShortMet (s : State) (c : Channel) (current : Nat) (saturated : Bool) : Prop :=
  let q := min 1023 (64 * current / (10 * (s.profile c).nominal))
  if (s.chan c).sw.allowance = none then saturated = true ∨ (s.profile c).shortRatio ≤ q
  else saturated = false ∧ min (2 * (s.profile c).shortRatio) 1023 ≤ q

section
variable {s : State} {c : Channel} {current : Nat} {saturated : Bool}

theorem State.deliverCurrent_of_held (h : ¬((s.chan c).prot.state = .ready ∨ (s.chan c).prot.state = .warm)) :
    s.deliverCurrent c current saturated = s := if_neg fun k => h ((ProtState.free_iff _).1 k)

theorem State.deliverCurrent_of_met (free : (s.chan c).prot.state = .ready ∨ (s.chan c).prot.state = .warm)
    (met : s.ShortMet c current saturated) : s.deliverCurrent c current saturated = (s.trip c .short).evaluate c :=
  (if_pos ((ProtState.free_iff _).2 free)).trans (if_pos ((shortTest_iff ..).2 met))

theorem State.deliverCurrent_of_unmet (free : (s.chan c).prot.state = .ready ∨ (s.chan c).prot.state = .warm)
    (unmet : ¬s.ShortMet c current saturated) : s.deliverCurrent c current saturated = s.checkOnState c current :=
  (if_pos ((ProtState.free_iff _).2 free)).trans (if_neg fun k => unmet ((shortTest_iff ..).1 k))

end

/-- The evaluation of a channel in TRIPPED or LOCKOUT grants OFF (R54). -/
theorem evaluate_granted_of_held {s : State} {c : Channel}
    (h : (s.chan c).prot.state.tripped = true ∨ (s.chan c).prot.state.locked = true) :
    ((s.evaluate c).chan c).arb.granted = .off := by
  have e := evaluates s c
  obtain ⟨-, granted, -⟩ := e.settled
  have state : ((s.evaluate c).chan c).prot.state = (s.chan c).prot.state := (e.kept c).protState
  generalize s.evaluate c = t at granted state
  rw [← state] at h
  have off : (t.judge c).2.out = .off := limitChain_out_of_held (h.imp_right .inl) _
  rw [granted, off]
  rfl

/-- A trip: a record in TRIPPED or LOCKOUT written, its reports made, and the channel evaluated. -/
theorem State.withRecord_evaluate {s t : State} {c : Channel} {r : ProtRecord} {l : FaultList}
    (eq : t = (s.withRecord c r l).evaluate c) (held : r.state.tripped = true ∨ r.state.locked = true) :
    (s.withRecord c r l).EvaluatesTo t [c] ∧ (t.chan c).prot.state = r.state ∧ t.faults = l ∧ (t.chan c).arb.granted = .off
      ∧ ∀ d : Channel, d ≠ c → s.SameOrAdmitted t d := by
  subst eq
  obtain ⟨row, frame, kept, others, settled⟩ := evaluateEach_evaluatesTo (s.withRecord c r l) [c]
  refine ⟨⟨row, frame, kept, others, settled⟩, ?_, ?_, ?_, fun d hd => ?_⟩
  · refine (kept c).protState.trans ?_
    rw [State.withRecord_chan_self]
  · exact congrArg State.faults frame
  · exact evaluate_granted_of_held (by rw [State.withRecord_chan_self]; exact held)
  · exact (others d (by simpa using hd)).of_eq (State.withRecord_chan_ne s c r l hd) rfl

theorem State.endOpenLoadOn_withRecord (s : State) (c : Channel) (r : ProtRecord) (l : FaultList) :
    (s.withRecord c r l).endOpenLoadOn c = s.withRecord c { r with openLoadOn := false }
      (if r.openLoadOn = true then l.finish s.now (.openLoadOn c) else l) := by
  unfold State.endOpenLoadOn
  rw [State.withRecord_chan_self]
  dsimp only
  split
  · rw [State.withRecord_withProt, State.withRecord_finish]
  · next inactive => rw [← Bool.eq_false_iff.2 inactive]

/-- The channel's samples are checked for an open load: RUNNING, without an allowance in force (R112). -/
def ChannelState.Checked (x : ChannelState) : Prop :=
  x.sw.out ≠ .off ∧ x.sw.out ≠ .waiting ∧ (∀ due, x.sw.out ≠ .inrush due) ∧ x.sw.allowance = none

theorem ChannelState.checked_iff (s : State) (c : Channel) :
    ((s.chan c).sw.out.isRunning && !s.allowanceInForce c) = true ↔ (s.chan c).Checked := by
  unfold ChannelState.Checked State.allowanceInForce
  cases (s.chan c).sw.out <;> simp [OutState.isRunning]

section
variable {s : State} {c : Channel} {current : Nat}

theorem State.checkOnState_of_unchecked (h : ¬(s.chan c).Checked) : s.checkOnState c current = s :=
  if_neg fun k => h ((ChannelState.checked_iff s c).1 k)

theorem State.checkOnState_of_zero (h : (s.chan c).Checked) (zero : (s.profile c).openLoad = 0) :
    s.checkOnState c current = s.withRecord c { (s.chan c).prot with openLoadOn := false }
      (if (s.chan c).prot.openLoadOn = true then s.faults.finish s.now (.openLoadOn c) else s.faults) := by
  refine ((if_pos ((ChannelState.checked_iff s c).2 h)).trans (if_pos zero)).trans ?_
  have same := s.endOpenLoadOn_withRecord c (s.chan c).prot s.faults
  rwa [State.withRecord_same] at same

theorem State.checkOnState_of_le (h : (s.chan c).Checked) (zero : 0 < (s.profile c).openLoad)
    (above : (s.profile c).openLoad ≤ current) :
    s.checkOnState c current = s.withRecord c { (s.chan c).prot with onCount := 0, openLoadOn := false }
      (if (s.chan c).prot.openLoadOn = true then s.faults.finish s.now (.openLoadOn c) else s.faults) := by
  refine ((if_pos ((ChannelState.checked_iff s c).2 h)).trans ((if_neg (Nat.ne_of_gt zero)).trans
    (if_neg (Nat.not_lt.2 above)))).trans ?_
  rw [State.withProt_eq, State.endOpenLoadOn_withRecord]

theorem State.checkOnState_of_lt (h : (s.chan c).Checked) (below : current < (s.profile c).openLoad) :
    s.checkOnState c current =
      if min 50 ((s.chan c).prot.onCount + 1) = 50 ∧ (s.chan c).prot.openLoadOn = false then
        s.withRecord c { (s.chan c).prot with onCount := min 50 ((s.chan c).prot.onCount + 1), openLoadOn := true }
          (s.faults.occur s.now (.openLoadOn c))
      else s.withRecord c { (s.chan c).prot with onCount := min 50 ((s.chan c).prot.onCount + 1) } s.faults := by
  refine ((if_pos ((ChannelState.checked_iff s c).2 h)).trans ((if_neg (Nat.ne_of_gt (Nat.zero_lt_of_lt below))).trans
    (if_pos below))).trans ?_
  dsimp only
  rw [State.withProt_eq, State.withRecord_chan_self, State.withRecord_withProt, State.withRecord_occur]

end

/-- The open-load check leaves the retry counter (R112). -/
theorem State.checkOnState_retries (s : State) (c : Channel) (current : Nat) :
    ((s.checkOnState c current).chan c).prot.retries = (s.chan c).prot.retries := by
  by_cases h : (s.chan c).Checked
  · rcases Nat.lt_or_ge current (s.profile c).openLoad with below | above
    · rw [State.checkOnState_of_lt h below]
      split <;> rw [State.withRecord_chan_self]
    · rcases Nat.eq_zero_or_pos (s.profile c).openLoad with zero | pos
      · rw [State.checkOnState_of_zero h zero, State.withRecord_chan_self]
      · rw [State.checkOnState_of_le h pos above, State.withRecord_chan_self]
  · rw [State.checkOnState_of_unchecked h]

/-- Settles O41: a delivery by the state and the short test; what trips is a record written and an evaluation. -/
theorem shortTestTrips : Obligations.ShortTestTrips := by
  intro s c current saturated p r q met t free trips
  have test : met ↔ s.ShortMet c current saturated := Iff.rfl
  refine ⟨State.deliverCurrent_of_held, fun f m left => ?_, fun f m spent => ?_, fun f m => ?_⟩
  · exact State.withRecord_evaluate ((State.deliverCurrent_of_met f (test.1 m)).trans
      (congrArg (State.evaluate · c) (State.trip_of_lt .short left))) (.inl rfl)
  · exact State.withRecord_evaluate ((State.deliverCurrent_of_met f (test.1 m)).trans
      (congrArg (State.evaluate · c) (State.trip_of_le .short spent))) (.inr rfl)
  · have eq : t = s.checkOnState c current := State.deliverCurrent_of_unmet f fun k => m (test.2 k)
    obtain ⟨frame, others, own, -⟩ := protOnly_checkOnState s c current
    rw [eq]
    exact ⟨s.checkOnState_state c current, frame, s.checkOnState_retries c current, by rw [own], by rw [own], others⟩

/-- Settles O42: the check by the threshold and the count. -/
theorem onStateOpenLoadCheck : Obligations.OnStateOpenLoadCheck := by
  intro s c current saturated p x r q met checked t count leaves ended free unmet
  have eq : t = s.checkOnState c current := State.deliverCurrent_of_unmet free unmet
  refine ⟨fun h => eq.trans (State.checkOnState_of_unchecked h), fun h zero => eq.trans (State.checkOnState_of_zero h zero),
    fun h pos above => eq.trans (State.checkOnState_of_le h pos above), fun h below few => ?_, fun h below full inactive => ?_,
    fun h below full active => ?_⟩
  · exact eq.trans ((State.checkOnState_of_lt h below).trans (if_neg fun k => Nat.ne_of_lt few k.1))
  · refine eq.trans ((State.checkOnState_of_lt h below).trans ((if_pos ⟨full, inactive⟩).trans ?_))
    rw [show min 50 ((s.chan c).prot.onCount + 1) = 50 from full]
    rfl
  · have still : (s.chan c).prot.openLoadOn ≠ false := fun k => Bool.noConfusion (active.symm.trans k)
    refine eq.trans ((State.checkOnState_of_lt h below).trans ((if_neg fun k => still k.2).trans ?_))
    rw [show min 50 ((s.chan c).prot.onCount + 1) = 50 from full]
    change _ = s.withRecord c { (s.chan c).prot with onCount := 50, openLoadOn := true } s.faults
    rw [← show (s.chan c).prot.openLoadOn = true from active]

/-! ### Off-state samples (R113 to R116) -/

/-- The end tests of R115 on a record and a list. -/
theorem State.endOffState_withRecord (s : State) (c : Channel) (r : ProtRecord) (l : FaultList) (half eight : Bool) :
    (s.withRecord c r l).endOffState c half eight =
      s.withRecord c { r with openLoadOff := r.openLoadOff && half, shortToSupply := r.shortToSupply && eight }
        (let ended := if (r.openLoadOff && !half) = true then l.finish s.now (.openLoadOff c) else l
        if (r.shortToSupply && !eight) = true then ended.finish s.now (.shortToSupply c) else ended) := by
  have first : (if ((s.withRecord c r l).chan c).prot.openLoadOff && !half then
        ((s.withRecord c r l).withProt c fun r => { r with openLoadOff := false }).finish (.openLoadOff c)
      else s.withRecord c r l) = s.withRecord c { r with openLoadOff := r.openLoadOff && half }
        (if (r.openLoadOff && !half) = true then l.finish s.now (.openLoadOff c) else l) := by
    rw [State.withRecord_chan_self, State.withRecord_withProt, State.withRecord_finish]
    obtain ⟨_, _, _, _, _, _, _, _, off, _, _⟩ := r
    cases off <;> cases half <;> rfl
  unfold State.endOffState
  rw [first]
  dsimp only
  generalize (if (r.openLoadOff && !half) = true then l.finish s.now (.openLoadOff c) else l) = m
  rw [State.withRecord_chan_self, State.withRecord_withProt, State.withRecord_finish]
  dsimp only
  cases short : r.shortToSupply <;> cases eight <;> rfl

/-- The beginnings of R115 on a record whose count is written, and a list. -/
theorem State.beginOffState_withRecord (s : State) (c : Channel) (r : ProtRecord) (l : FaultList) (n : Nat) (pulls : Bool) :
    (if n = 10 then
        if pulls then
          if ((s.withRecord c r l).chan c).prot.openLoadOff then s.withRecord c r l
          else ((s.withRecord c r l).withProt c fun r => { r with openLoadOff := true }).occur (.openLoadOff c)
        else if ((s.withRecord c r l).chan c).prot.shortToSupply then s.withRecord c r l
        else ((s.withRecord c r l).withProt c fun r => { r with shortToSupply := true }).occur (.shortToSupply c)
      else s.withRecord c r l) =
    s.withRecord c { r with
        openLoadOff := r.openLoadOff || (pulls && decide (n = 10))
        shortToSupply := r.shortToSupply || (!pulls && decide (n = 10)) }
      (if n = 10 ∧ pulls = true ∧ r.openLoadOff = false then l.occur s.now (.openLoadOff c)
        else if n = 10 ∧ ¬pulls = true ∧ r.shortToSupply = false then l.occur s.now (.shortToSupply c)
        else l) := by
  rw [State.withRecord_chan_self, State.withRecord_withProt, State.withRecord_withProt, State.withRecord_occur,
    State.withRecord_occur]
  by_cases full : n = 10
  · obtain ⟨_, _, _, _, _, _, _, _, off, short, _⟩ := r
    subst full
    cases pulls <;> cases off <;> cases short <;> rfl
  · rw [if_neg full, if_neg fun k => full k.1, if_neg fun k => full k.1, decide_eq_false full]
    simp

/-- What a check sample makes of record and fault list (R114, R115). -/
theorem State.checkSample_eq (s : State) (c : Channel) (voltage supply : Nat) :
    let r := (s.chan c).prot
    let half := decide (supply ≤ 2 * voltage)
    let eight := decide (8 * supply ≤ 10 * voltage)
    let pulls := (s.profile c).pulls
    let n := countCheck r.offCount (if pulls then half else eight)
    let begun := if n = 10 ∧ pulls = true ∧ r.openLoadOff = false then s.faults.occur s.now (.openLoadOff c)
      else if n = 10 ∧ ¬pulls = true ∧ r.shortToSupply = false then s.faults.occur s.now (.shortToSupply c)
      else s.faults
    let off := r.openLoadOff || (pulls && decide (n = 10))
    let short := r.shortToSupply || (!pulls && decide (n = 10))
    s.checkSample c voltage supply = s.withRecord c { r with offCount := n, openLoadOff := off && half, shortToSupply := short && eight }
      (let ended := if (off && !half) = true then begun.finish s.now (.openLoadOff c) else begun
      if (short && !eight) = true then ended.finish s.now (.shortToSupply c) else ended) := by
  intro r half eight pulls n begun off short
  have counted : s.withProt c (fun r => { r with offCount := n }) = s.withRecord c { r with offCount := n } s.faults := rfl
  have eq := s.beginOffState_withRecord c { r with offCount := n } s.faults n pulls
  have ended := s.endOffState_withRecord c { r with offCount := n, openLoadOff := off, shortToSupply := short } begun half eight
  change (if n = 10 then _ else _ : State).endOffState c half eight = _
  rw [counted, eq]
  exact ended

/-- A count of ten is reached by a sample that meets the threshold. -/
theorem countCheck_eq_ten {n : Nat} {meets : Bool} (h : countCheck n meets = 10) : meets = true := by
  cases meets
  · cases h
  · rfl

/-- A condition stands after a check sample: it stood or began, and its threshold is met. -/
theorem flag_iff (stood pulls meets : Bool) (n : Nat) :
    ((stood || (pulls && decide (n = 10))) && meets) = true ↔ (stood = true ∨ pulls = true ∧ n = 10) ∧ meets = true := by
  simp

/-- Settles O43: the record and the reports of a check sample. -/
theorem offStateChecks : Obligations.OffStateChecks := by
  intro s c wasOff voltage supply r pulls half eight checked t count
  refine ⟨fun h => if_neg h, fun h => ?_⟩
  have eq : t = s.withRecord c _ _ := (if_pos h).trans (s.checkSample_eq c voltage supply)
  have pull : (s.profile c).pulls = true ↔ pulls := beq_iff_eq
  have meetsHalf : decide (supply ≤ 2 * voltage) = true ↔ half := decide_eq_true_iff
  have meetsEight : decide (8 * supply ≤ 10 * voltage) = true ↔ eight := decide_eq_true_iff
  generalize decide (supply ≤ 2 * voltage) = H at eq meetsHalf
  generalize decide (8 * supply ≤ 10 * voltage) = E at eq meetsEight
  generalize (s.profile c).pulls = P at eq pull
  have ten (k : countCheck r.offCount (if P then H else E) = 10) : (if P then H else E) = true := countCheck_eq_ten k
  have meets : (if P then H else E) = true ↔ pulls ∧ half ∨ ¬pulls ∧ eight := by
    rw [← pull, ← meetsHalf, ← meetsEight]
    cases P <;> simp
  have own : t.chan c = _ := (congrArg (fun u : State => u.chan c) eq).trans (State.withRecord_chan_self ..)
  have counted : count = countCheck r.offCount (if P then H else E) := by unfold count; rw [own]
  rw [← counted] at own eq ten
  refine ⟨by rw [eq]; rfl, fun d hd => by rw [eq]; exact State.withRecord_chan_ne s c _ _ hd, fun k => ?_, fun k => ?_, ?_, ?_, ?_, ?_⟩
  · rw [counted, meets.2 k]; rfl
  · rw [counted, Bool.eq_false_iff.2 fun m => k (meets.1 m)]; rfl
  · rw [own, ← pull, ← meetsHalf]
    exact flag_iff r.openLoadOff P H count
  · rw [own, ← pull, ← meetsEight]
    refine (flag_iff r.shortToSupply (!P) E count).trans ?_
    rw [Bool.not_eq_true', ← Bool.not_eq_true]
  · rw [own]
  · intro begun ended
    have endsOff : ((r.openLoadOff || (P && decide (count = 10))) && !H) = true ↔ r.openLoadOff = true ∧ ¬half := by
      rw [← meetsHalf]
      cases P <;> cases H <;> simp_all
    have endsShort : ((r.shortToSupply || (!P && decide (count = 10))) && !E) = true ↔ r.shortToSupply = true ∧ ¬eight := by
      rw [← meetsEight]
      cases P <;> cases E <;> simp_all
    have begins : (if count = 10 ∧ P = true ∧ r.openLoadOff = false then s.faults.occur s.now (.openLoadOff c)
        else if count = 10 ∧ ¬P = true ∧ r.shortToSupply = false then s.faults.occur s.now (.shortToSupply c)
        else s.faults) = begun := by
      unfold begun
      simp only [pull]
    have ends : (if ((r.openLoadOff || (P && decide (count = 10))) && !H) = true then
        FaultList.finish _ s.now (.openLoadOff c) else _) = ended :=
      if_congr endsOff (congrArg (fun l => FaultList.finish l s.now (.openLoadOff c)) begins) begins
    exact (congrArg State.faults eq).trans
      (if_congr endsShort (congrArg (fun l => FaultList.finish l s.now (.shortToSupply c)) ends) ends)

/-! ### Timers that only expire (R98, R103, R107, R113, R119, R169) -/

/-- Settles O40: each expiry of a running timer, by its definition. -/
theorem timersExpire : Obligations.TimersExpire := by
  intro s c later x
  refine ⟨fun ends h => ?_, fun start h => ?_, fun ends h => ?_, fun start h => ?_, rfl⟩
  · change execAllowanceTimerExpiry c s = _
    unfold execAllowanceTimerExpiry
    rw [h]
    rfl
  · change execOffTimeWaitComplete c s = _
    unfold execOffTimeWaitComplete
    rw [h]
    rfl
  · change execRetryDelayExpiry c s = _
    unfold execRetryDelayExpiry
    rw [h]
    rfl
  · change execStableRunExpiry c s = _
    unfold execStableRunExpiry
    rw [h]
    rfl

/-! ### Deliveries (R68, R71, R74 to R76) -/

/-- What a delivery to the protection unit or to the supervisor leaves: every block but channels, queue, generators,
supervisor and fault list, and of each channel its readings, demand list and H. -/
structure Delivers (s t : State) : Prop where
  frame : t = { s with chans := t.chans, queue := t.queue, gens := t.gens, sup := t.sup, faults := t.faults }
  current : ∀ c, (t.chan c).sense.current = (s.chan c).sense.current
  voltage : ∀ c, (t.chan c).sense.voltage = (s.chan c).sense.voltage
  list : ∀ c, (t.chan c).demand.list = (s.chan c).demand.list
  heat : ∀ c, (t.chan c).prot.heat = (s.chan c).prot.heat

theorem Delivers.refl (s : State) : Delivers s s := ⟨rfl, fun _ => rfl, fun _ => rfl, fun _ => rfl, fun _ => rfl⟩

theorem Delivers.trans {s t u : State} (h : Delivers s t) (k : Delivers t u) : Delivers s u where
  frame := by rw [k.frame, h.frame]
  current c := (k.current c).trans (h.current c)
  voltage c := (k.voltage c).trans (h.voltage c)
  list c := (k.list c).trans (h.list c)
  heat c := (k.heat c).trans (h.heat c)

theorem Delivers.foldl {α : Type} {f : State → α → State} (h : ∀ s a, Delivers s (f s a)) :
    ∀ (l : List α) (s : State), Delivers s (l.foldl f s)
  | [], s => .refl s
  | a :: l, s => (h s a).trans (Delivers.foldl h l (f s a))

theorem ProtOnly.delivers {c : Channel} {s t : State} (h : ProtOnly c s t) : Delivers s t := by
  have own (d : Channel) : t.chan d = { s.chan d with prot := (t.chan d).prot } := by
    by_cases hd : d = c
    · rw [hd]; exact h.own
    · rw [h.others d hd]
  refine ⟨by rw [h.frame], fun d => by rw [own d], fun d => by rw [own d], fun d => by rw [own d], fun d => ?_⟩
  by_cases hd : d = c
  · rw [hd]; exact h.heat
  · rw [h.others d hd]

theorem Evaluated.delivers {s t : State} {l : List Channel} (h : s.Evaluated t l) : Delivers s t := by
  obtain ⟨frame, kept, -, -⟩ := h
  refine ⟨by rw [frame], fun d => ?_, fun d => ?_, fun d => (kept d).1, fun d => ?_⟩
  · obtain ⟨-, -, current, -, -⟩ := kept d; exact current
  · obtain ⟨-, -, -, voltage, -⟩ := kept d; exact voltage
  · obtain ⟨-, -, -, -, prot⟩ := kept d; rw [prot]

theorem delivers_deliverCurrent (s : State) (c : Channel) (current : Nat) (saturated : Bool) :
    Delivers s (s.deliverCurrent c current saturated) := by
  unfold State.deliverCurrent
  dsimp only
  split
  · split
    · exact (protOnly_trip s c _).delivers.trans (Evaluated.delivers (evaluate_evaluated _ c))
    · exact (protOnly_checkOnState s c _).delivers
  · exact .refl s

theorem delivers_evaluateAll (s : State) : Delivers s s.evaluateAll := Evaluated.delivers (evaluateAll_evaluated s)

theorem delivers_deliverZone (s : State) (volts : Nat) : Delivers s (s.deliverZone volts) := by
  have ite {a b u : State} {P : Prop} [Decidable P] (ha : Delivers u a) (hb : Delivers u b) : Delivers u (if P then a else b) := by
    split <;> assumption
  have sampled : Delivers s (s.zoneSampled volts) := ⟨rfl, fun _ => rfl, fun _ => rfl, fun _ => rfl, fun _ => rfl⟩
  rw [State.deliverZone_eq]
  exact (sampled.trans (ite (.refl _) (delivers_evaluateAll _))).trans (ite (.refl _) (delivers_evaluateAll _))

theorem delivers_deliver (r s : State) (d : Delivery) : Delivers s (r.deliver s d) := by
  unfold State.deliver
  split
  · exact delivers_deliverZone s _
  · dsimp only
    split
    · exact delivers_deliverCurrent s _ _ _
    · exact (protOnly_deliverVoltage s ..).delivers
    · exact .refl s

/-! ### A scan (R68, R75, R76) -/

theorem byChannel_recordScan (s : State) (m : ScanReadings) :
    ByChannel (fun t c => t.withSense c fun r => r.scanned m.current[c] m.voltage[c]) id
      (fun t => t = { s with chans := t.chans })
      fun c x => { x with sense := x.sense.scanned m.current[c] m.voltage[c] } :=
  byChannel_setChan s fun _ _ _ => rfl

/-- The part at a scan that is due, with the zone sample recorded (R75). -/
def State.zoneRecorded (s : State) (m : ScanReadings) : State := { s with
  now := max s.now (s.scan.last + 10)
  scan := ⟨min 2000 (m.feeder.toNat / 100), min 600 (m.supply.toNat / 100), max s.now (s.scan.last + 10)⟩ }

/-- The part after the recording of a scan that is due. -/
def State.scanRecorded (s : State) (m : ScanReadings) : State :=
  allChannels.foldl (fun t c => t.withSense c fun r => r.scanned m.current[c] m.voltage[c]) (s.zoneRecorded m)

theorem State.scanRecorded_frame (s : State) (m : ScanReadings) :
    s.scanRecorded m = { s.zoneRecorded m with chans := (s.scanRecorded m).chans } :=
  (byChannel_recordScan (s.zoneRecorded m) m).foldl_keeps allChannels (s.zoneRecorded m) rfl

theorem State.scanRecorded_chan (s : State) (m : ScanReadings) (c : Channel) :
    (s.scanRecorded m).chan c = { s.chan c with sense := (s.chan c).sense.scanned m.current[c] m.voltage[c] } := by
  unfold State.scanRecorded
  rw [(byChannel_recordScan (s.zoneRecorded m) m).foldl_chan nodup_allChannels rfl, if_pos (mem_allChannels c)]
  rfl

theorem exec_scan (s : State) (m : ScanReadings) (order : List Delivery) :
    exec (.scan m order) s = .next ((deliveryOrder order).foldl (s.scanRecorded m).deliver (s.scanRecorded m)) := rfl

theorem mem_allDeliveries (d : Delivery) : d ∈ allDeliveries := by
  cases d with
  | zone => exact List.mem_append_right _ List.mem_cons_self
  | channel c => exact List.mem_append_left _ (List.mem_map_of_mem (mem_allChannels c))

theorem nodup_allDeliveries : allDeliveries.Nodup := by decide

theorem mem_deliveryOrder (order : List Delivery) (d : Delivery) : d ∈ deliveryOrder order := by
  unfold deliveryOrder
  by_cases h : d ∈ order
  · exact List.mem_append_left _ (List.mem_dedup.2 h)
  · exact List.mem_append_right _ (List.mem_filter.2 ⟨mem_allDeliveries d, decide_eq_true h⟩)

theorem nodup_deliveryOrder (order : List Delivery) : (deliveryOrder order).Nodup := by
  refine List.nodup_append'.2 ⟨List.nodup_dedup order, nodup_allDeliveries.filter _, fun d named rest => ?_⟩
  obtain ⟨-, unnamed⟩ := List.mem_filter.1 rest
  exact of_decide_eq_true unnamed (List.mem_dedup.1 named)

/-- Settles O36: the recording channel by channel, and the deliveries one by one. -/
theorem scanRecordsSamples : Obligations.ScanRecordsSamples := by
  intro s m order
  have frame := s.scanRecorded_frame m
  have chan := s.scanRecorded_chan m
  have taken := exec_scan s m order
  have deliver (u : State) (d : Delivery) := delivers_deliver (s.scanRecorded m) u d
  generalize s.scanRecorded m = r at frame chan taken deliver
  have delivered := Delivers.foldl deliver (deliveryOrder order) r
  refine ⟨r, _, taken, frame, fun c => ?_, ?_, nodup_deliveryOrder order, mem_deliveryOrder order, fun named => ?_,
    delivered.frame, fun c => ⟨delivered.current c, delivered.voltage c, (delivered.list c).trans ?_, (delivered.heat c).trans ?_⟩⟩
  · rw [chan]
    generalize (s.chan c).sense = y
    obtain ⟨_, _, _, _, kind⟩ := y
    cases kind <;> rfl
  · congr 1
    funext u d
    cases d with
    | zone => rfl
    | channel c =>
      have kind : (r.chan c).sense.kind = (s.chan c).sense.kind := by rw [chan]; exact SenseRecord.scanned_kind ..
      have out : (r.chan c).sw.out = (s.chan c).sw.out := by rw [chan]
      unfold State.deliver
      dsimp only
      rw [out]
      generalize (r.chan c).sense.kind = found at kind ⊢
      subst kind
      cases (s.chan c).sense.kind <;> rfl
  · unfold deliveryOrder
    rw [List.dedup_eq_self.2 named]
    exact List.prefix_append _ _
  · rw [chan]
  · rw [chan]

/-! ### Midpoints (R72) -/

/-- Only a channel RUNNING in PWM mode has a midpoint pending (R69, R72). -/
theorem out_of_periodic {s : State} (ok : s.OutputsOk) {c : Channel} {start : Moment} {e : Nat} {b : Bool}
    (kind : (s.chan c).sense.kind = .periodic start e b) : ∃ d on staged begun, (s.chan c).sw.out = .pwm d on staged begun := by
  obtain ⟨-, -, fits⟩ := (s.outputsOk_iff.1 ok).2.2 c
  rw [kind] at fits
  cases out : (s.chan c).sw.out with
  | pwm d on staged begun => exact ⟨d, on, staged, begun, rfl⟩
  | flash p =>
    rw [out] at fits
    replace fits : SampleKind.periodic start e b = if s.patternOn p then .current else .voltage := fits
    split at fits <;> cases fits
  | _ => rw [out] at fits; cases fits

/-- The evaluation that turns a PWM channel OFF leaves its marks (R121). -/
theorem evaluate_marks_of_held {s : State} {c : Channel} {d on : Nat} {staged : Staged} {begun : Moment}
    (out : (s.chan c).sw.out = .pwm d on staged begun)
    (h : (s.chan c).prot.state.tripped = true ∨ (s.chan c).prot.state.locked = true) :
    ((s.evaluate c).chan c).sense.valid = (s.chan c).sense.valid
      ∧ ((s.evaluate c).chan c).sense.saturated = (s.chan c).sense.saturated := by
  have off : (s.judge c).2.out = .off := limitChain_out_of_held (h.imp_right .inl) _
  have own := recordJudgement_chan_self s c
  unfold State.evaluate
  dsimp only
  rw [off]
  generalize s.recordJudgement c = t at own
  have still : (t.chan c).sw.out = .pwm d on staged begun := by rw [own]; exact out
  have marks : (t.chan c).sense.valid = (s.chan c).sense.valid ∧ (t.chan c).sense.saturated = (s.chan c).sense.saturated := by
    rw [own]; exact ⟨rfl, rfl⟩
  split
  · exact marks
  · obtain ⟨-, -, -, pwm, -⟩ := handOverMovesOutput t c (Output.grant .off) ((s.judge c).1.map Winner.cls)
    obtain ⟨ended, -⟩ := pwm d on staged begun still
    rw [ended rfl, State.chan_setChan_self]
    exact marks

/-- The delivery of an on-state sample: nothing but channels, queue, generators and fault list, and other channels at most
admitted (R99). -/
theorem deliverCurrent_frame (s : State) (c : Channel) (current : Nat) (saturated : Bool) :
    let t := s.deliverCurrent c current saturated
    t = { s with chans := t.chans, queue := t.queue, gens := t.gens, faults := t.faults }
      ∧ ∀ d, d ≠ c → s.SameOrAdmitted t d := by
  obtain ⟨unfree, lt, le, unmet⟩ := shortTestTrips s c current saturated
  by_cases free : (s.chan c).prot.state = .ready ∨ (s.chan c).prot.state = .warm
  · by_cases met : s.ShortMet c current saturated
    · rcases Nat.lt_or_ge (s.chan c).prot.retries (s.profile c).retryLimit with left | spent
      · obtain ⟨⟨-, frame, -⟩, -, faults, -, others⟩ := lt free met left
        exact ⟨by rw [← faults] at frame; exact frame, others⟩
      · obtain ⟨⟨-, frame, -⟩, -, faults, -, others⟩ := le free met spent
        exact ⟨by rw [← faults] at frame; exact frame, others⟩
    · obtain ⟨-, frame, -, -, -, others⟩ := unmet free met
      exact ⟨by rw [frame], fun d hd => .inl (others d hd)⟩
  · intro t
    have same : t = s := unfree free
    rw [same]
    exact ⟨rfl, fun d _ => .inl rfl⟩

/-- The delivery of a sample to a PWM channel leaves its marks; and its sample kind, unless it trips. -/
theorem deliverCurrent_marks {s : State} {c : Channel} {d on : Nat} {staged : Staged} {begun : Moment}
    (out : (s.chan c).sw.out = .pwm d on staged begun) (current : Nat) (saturated : Bool) :
    let y := (s.deliverCurrent c current saturated).chan c
    y.sense.valid = (s.chan c).sense.valid ∧ y.sense.saturated = (s.chan c).sense.saturated
      ∧ (y.prot.state = (s.chan c).prot.state → y.sense.kind = (s.chan c).sense.kind) := by
  by_cases free : (s.chan c).prot.state = .ready ∨ (s.chan c).prot.state = .warm
  · by_cases met : s.ShortMet c current saturated
    · rw [State.deliverCurrent_of_met free met]
      have tripped (q : ProtState) (l : FaultList) (held : q.tripped = true ∨ q.locked = true)
          (eq : s.trip c .short = s.withRecord c { (s.chan c).prot with state := q, stableRun := none } l) :
          let y := ((s.trip c .short).evaluate c).chan c
          y.sense.valid = (s.chan c).sense.valid ∧ y.sense.saturated = (s.chan c).sense.saturated
            ∧ (y.prot.state = (s.chan c).prot.state → y.sense.kind = (s.chan c).sense.kind) := by
        have own : (s.trip c .short).chan c = { s.chan c with
            prot := { (s.chan c).prot with state := q, stableRun := none } } := by rw [eq, State.withRecord_chan_self]
        have state : (((s.trip c .short).evaluate c).chan c).prot.state = q :=
          ((evaluates (s.trip c .short) c).kept c).protState.trans (by rw [own])
        obtain ⟨valid, saturated⟩ := evaluate_marks_of_held (s := s.trip c .short) (c := c) (by rw [own]; exact out)
          (by rw [own]; exact held)
        refine ⟨valid.trans (by rw [own]), saturated.trans (by rw [own]), fun same => ?_⟩
        rw [state] at same
        rcases free with free | free <;> rw [same, free] at held <;> rcases held with held | held <;> cases held
      rcases Nat.lt_or_ge (s.chan c).prot.retries (s.profile c).retryLimit with left | spent
      · exact tripped _ _ (.inl rfl) (State.trip_of_lt .short left)
      · exact tripped _ _ (.inr rfl) (State.trip_of_le .short spent)
    · rw [State.deliverCurrent_of_unmet free met]
      obtain ⟨-, -, own, -⟩ := protOnly_checkOnState s c current
      intro y
      have sense : y.sense = (s.chan c).sense := by unfold y; rw [own]
      rw [sense]
      exact ⟨rfl, rfl, fun _ => rfl⟩
  · rw [State.deliverCurrent_of_held free]
    exact ⟨rfl, rfl, fun _ => rfl⟩

/-- Settles O37: the midpoint recorded, and the delivery of its sample. -/
theorem midpointRecordsSample : Obligations.MidpointRecordsSample := by
  intro s c milliamps start e ok pending reading r t
  have taken : exec (.pwmMidpoint c milliamps) s = .next t := by
    change execPwmMidpoint c milliamps s = _
    unfold execPwmMidpoint
    rw [pending]
    rfl
  have own : r.chan c = { s.chan c with
      sense := ⟨reading, true, decide (reading = 6000), (s.chan c).sense.voltage, .periodic start e false⟩ } :=
    State.chan_setChan_self ..
  obtain ⟨d, on, staged, begun, out⟩ := out_of_periodic ok pending
  obtain ⟨frame, others⟩ := deliverCurrent_frame r c reading (decide (reading = 6000))
  have delivered := delivers_deliverCurrent r c reading (decide (reading = 6000))
  obtain ⟨valid, saturated, kind⟩ := deliverCurrent_marks (s := r) (c := c) (by rw [own]; exact out) reading
    (decide (reading = 6000))
  refine ⟨taken, frame, (delivered.current c).trans ?_, valid.trans ?_, saturated.trans ?_, (delivered.voltage c).trans ?_,
    (delivered.list c).trans ?_, (delivered.heat c).trans ?_, fun same => (kind (same.trans ?_)).trans ?_,
    fun d hd => (others d hd).of_eq (State.chan_setChan_ne _ _ hd) rfl⟩
  all_goals rw [own]

end Sys2Proof.Machine
end

section
/-! SUPPORT. The supply supervisor: feeder fuse ticks, shed floors and zone samples, each with the levels it leaves and the
evaluations a changed level or hold causes (R87, R88, R142 to R154). -/

namespace Sys2Proof.Machine

/-! ### Evaluations of a changed level -/

theorem evaluateLevel_frame (s before : State) : s.evaluateLevel before = { s with
    chans := (s.evaluateLevel before).chans, queue := (s.evaluateLevel before).queue, gens := (s.evaluateLevel before).gens } := by
  unfold State.evaluateLevel
  split
  · rfl
  · exact evaluateAll_frame s

/-- The reports of a level that becomes more than 0, or 0 again. -/
theorem FaultList.report_levels (l : FaultList) (t : Moment) (old new : Nat) (k : FaultKey) :
    l.report t (flagReport (decide (1 ≤ old)) (decide (1 ≤ new)) k) =
      if old = 0 ∧ 1 ≤ new then l.occur t k else if 1 ≤ old ∧ new = 0 then l.finish t k else l := by
  rcases old with _ | old <;> rcases new with _ | new <;> simp [flagReport, FaultList.occur, FaultList.finish]

/-! ### Feeder fuse ticks (R149, R150) -/

section
variable {v : Supervisor} {z : Zone} {t : Moment}

/-- The comparison raises the thermal level (R149). -/
def Supervisor.ThermalRises (v : Supervisor) (z : Zone) (t : Moment) : Prop :=
  v.thermalLevel = 0 ∧ z.feederWarm * 2 ^ z.feederShift ≤ v.heat
    ∨ 1 ≤ v.thermalLevel ∧ v.thermalLevel < 3 ∧ z.feederWarm * 2 ^ z.feederShift ≤ v.heat ∧ 20000 ≤ t - v.dwellStart

/-- The comparison lowers the thermal level, unless it raises it (R149). -/
def Supervisor.ThermalFalls (v : Supervisor) (z : Zone) (t : Moment) : Prop :=
  1 ≤ v.thermalLevel ∧ v.heat < 3 * z.feederWarm * 2 ^ z.feederShift / 4 ∧ 50000 ≤ t - v.dwellStart

theorem Supervisor.thermalAfter_of_rises (h : v.ThermalRises z t) : v.thermalAfter z t = v.thermalLevel + 1 := by
  unfold Supervisor.thermalAfter
  rcases h with ⟨zero, warm⟩ | ⟨pos, low, warm, dwell⟩
  · rw [zero]
    exact if_pos warm
  · exact (if_neg (Nat.ne_of_gt pos)).trans (if_pos ⟨low, warm, dwell⟩)

theorem Supervisor.thermalAfter_of_falls (h : v.ThermalFalls z t) (rises : ¬v.ThermalRises z t) :
    v.thermalAfter z t = v.thermalLevel - 1 := by
  obtain ⟨pos, cool, dwell⟩ := h
  exact (if_neg (Nat.ne_of_gt pos)).trans ((if_neg fun k => rises (.inr ⟨pos, k⟩)).trans (if_pos ⟨cool, dwell⟩))

theorem Supervisor.thermalAfter_of_stays (rises : ¬v.ThermalRises z t) (falls : ¬v.ThermalFalls z t) :
    v.thermalAfter z t = v.thermalLevel := by
  unfold Supervisor.thermalAfter
  dsimp only
  split
  · next zero => exact (if_neg fun warm => rises (.inl ⟨zero, warm⟩)).trans zero.symm
  · next pos =>
    replace pos : 1 ≤ v.thermalLevel := Nat.one_le_iff_ne_zero.2 pos
    exact (if_neg fun k => rises (.inr ⟨pos, k⟩)).trans (if_neg fun k => falls ⟨pos, k⟩)

/-- A move of the thermal level sets the dwell start (R149). -/
theorem Supervisor.compare_of_moves (h : v.thermalAfter z t ≠ v.thermalLevel) :
    v.compare z t = { v with thermalLevel := v.thermalAfter z t, dwellStart := t } := if_neg h

theorem Supervisor.compare_of_stays (h : v.thermalAfter z t = v.thermalLevel) : v.compare z t = v := if_pos h

end

/-- Settles O44: the comparison, the update of the feeder's heat, and the evaluation of a changed level. -/
theorem feederTickMovesLevel : Obligations.FeederTickMovesLevel := by
  intro s z v now' dwell warm cool up down q
  let v' : Supervisor := { v with lastTick := now' }
  have rises : up ↔ v'.ThermalRises z now' := Iff.rfl
  have falls : down ↔ v'.ThermalFalls z now' := Iff.rfl
  have sup : s.feederTicked.sup = { v with
      lastTick := now', thermalLevel := (v'.compare z now').thermalLevel, dwellStart := (v'.compare z now').dwellStart
      level := (v'.compare z now').effective, heat := min 4294967295 (v.heat - v.heat / 2 ^ z.feederShift + q ^ 2) } := by
    change ({ v'.compare z now' with level := (v'.compare z now').effective, heat := heatStep z.feederShift (q ^ 2) (v'.compare z now').heat } : Supervisor) = _
    rw [v'.compare_eq z now']
    rfl
  have faults : s.feederTicked.faults = s.faults.report now'
      (flagReport (decide (1 ≤ v.thermalLevel)) (decide (1 ≤ (v'.compare z now').thermalLevel)) .feederWarm) := rfl
  have frame := evaluateLevel_frame s.feederTicked s
  obtain ⟨moved, still⟩ := evaluateLevel_of_frame (u := s.feederTicked) (before := s) (now' := now') rfl
  refine ⟨s.feederTicked.evaluateLevel s, exec_feederFuseTick s, ?_, ?_, fun h => ?_, fun h k => ?_, fun h k => ?_, ?_, ?_,
    moved, fun same => ?_⟩
  · rw [evaluateLevel_sup, evaluateLevel_faults]; exact frame
  · rw [evaluateLevel_sup, sup]
  · have after := Supervisor.thermalAfter_of_rises (rises.1 h)
    rw [evaluateLevel_sup, sup, Supervisor.compare_of_moves (by rw [after]; exact Nat.succ_ne_self _)]
    exact ⟨after, rfl⟩
  · have after := Supervisor.thermalAfter_of_falls (falls.1 h) (mt rises.2 k)
    have pos : v'.thermalLevel ≠ 0 := Nat.ne_of_gt h.1
    rw [evaluateLevel_sup, sup, Supervisor.compare_of_moves (by rw [after]; exact (Nat.pred_lt pos).ne)]
    exact ⟨after, rfl⟩
  · have after := Supervisor.thermalAfter_of_stays (mt rises.2 h) (mt falls.2 k)
    rw [evaluateLevel_sup, sup, Supervisor.compare_of_stays after]
    exact ⟨rfl, rfl⟩
  · rw [evaluateLevel_sup, sup]
    rw [v'.compare_eq z now']
    rfl
  · rw [evaluateLevel_sup, evaluateLevel_faults, faults, sup]
    exact FaultList.report_levels ..
  · rw [still same]
    exact ⟨rfl, rfl, rfl⟩

/-! ### Shed floors (R151, R152) -/

/-- A floor replaced: the supervisor's record, L, and the evaluation of a changed L. -/
theorem setFloor_changes (s : State) (src : NetSource) (f : Option Machine.Floor) :
    let t := s.setFloor src f
    t = { s with chans := t.chans, queue := t.queue, gens := t.gens, sup := t.sup }
      ∧ t.sup = { s.sup with floors := s.sup.floors.set src f, level := t.sup.level }
      ∧ t.sup.level = max (max t.sup.thermalLevel t.sup.voltageLevel) t.sup.floorComponent
      ∧ (t.sup.level ≠ s.sup.level → ({ s with sup := t.sup } : State).EvaluatesTo t allChannels)
      ∧ (t.sup.level = s.sup.level → t.chans = s.chans ∧ t.queue = s.queue ∧ t.gens = s.gens) := by
  let u := ({ s with sup := { s.sup with floors := s.sup.floors.set src f } } : State).recompute
  obtain ⟨moved, still⟩ := setFloor_evaluates s src f
  have sup : (s.setFloor src f).sup = u.sup := evaluateLevel_sup u s
  have frame : s.setFloor src f = { u with chans := (s.setFloor src f).chans, queue := (s.setFloor src f).queue, gens := (s.setFloor src f).gens } :=
    evaluateLevel_frame u s
  intro t
  refine ⟨?_, ?_, ?_, moved, fun same => ?_⟩
  · rw [sup]; exact frame
  · rw [sup]; rfl
  · rw [sup]; rfl
  · have eq := still same
    have chans := congrArg State.chans eq
    have queue := congrArg State.queue eq
    have gens := congrArg State.gens eq
    exact ⟨chans, queue, gens⟩

theorem exec_shedFloor_taken {s : State} {rx : RxHeader} {src : NetSource} (h : s.Takes rx src) (args : Vector Byte 7) :
    exec (.shedFloor rx args) s = .next ((State.shedFloor args[0].toNat args[1].toNat src s).finish 5 src) :=
  congrArg Host.Outcome.next (State.takeCommand_taken h 5 _)

/-- Settles O45: the floor of R151 or none, and what its replacement changes. -/
theorem floorsSetAndExpire : Obligations.FloorsSetAndExpire := by
  intro s changes
  refine ⟨fun rx args src taken => ?_, fun src f h => ?_⟩
  · intro level duration
    refine ⟨fun allowed => ?_, fun service inactive => ?_⟩
    · have eq : exec (.shedFloor rx args) s = .next ((s.setFloor src (floorOf level args[1].toNat s.now)).replied 5 src 0
          ((s.setFloor src (floorOf level args[1].toNat s.now)).floorItems src)) := by
        rw [exec_shedFloor_taken taken]
        unfold State.shedFloor
        rw [if_neg fun k => allowed ((s.lacksService_iff src).1 k)]
        exact congrArg Host.Outcome.next (Taken.finish_some _ .ok _ (by decide) src)
      have now (f : Option Machine.Floor) : (s.setFloor src f).now = s.now := by
        rw [State.setFloor, evaluateLevel_frame]; rfl
      have floor (f : Option Machine.Floor) : (s.setFloor src f).sup.floors.get src = f := by
        rw [State.setFloor, evaluateLevel_sup]; exact PerSource.get_set_self ..
      refine ⟨fun zero => ⟨s.setFloor src none, ?_, setFloor_changes s src none⟩, fun pos =>
        ⟨s.setFloor src (some ⟨min 3 level, s.now + 1000 * duration⟩), ?_, setFloor_changes s src _⟩⟩
      · have none : floorOf level args[1].toNat s.now = none := if_pos zero
        rw [eq, none]
        unfold State.floorItems
        rw [floor]
      · have some : floorOf level args[1].toNat s.now = some ⟨min 3 level, s.now + 1000 * duration⟩ := if_neg (Nat.ne_of_gt pos)
        have left : ceilUnits (s.now + 1000 * duration - s.now) 1000 = duration := by
          unfold ceilUnits
          rw [Nat.add_sub_cancel_left]
          omega
        rw [eq, some]
        unfold State.floorItems
        rw [floor, now]
        dsimp only
        rw [left]
    · rw [exec_shedFloor_taken taken]
      unfold State.shedFloor
      rw [if_pos ((s.lacksService_iff src).2 ⟨service, inactive⟩)]
      refine congrArg Host.Outcome.next ((Taken.finish_some _ .notPermitted _ (by decide) src).trans (congrArg _ ?_))
      unfold State.floorItems
      change (match s.sup.floors.service with | some _ => _ | none => _ : List Nat) = _
      cases s.sup.floors.service <;> rfl
  · have eq : exec (.floorExpiry src) s = .next ((s.advanceTo f.ends).setFloor src none) := by
      change execFloorExpiry src s = _
      unfold execFloorExpiry
      rw [h]
    exact ⟨_, eq, setFloor_changes _ src none⟩

/-! ### Runs (R142, R143) -/

theorem ranFor_iff (r : Option Moment) (t n : Moment) : ranFor r t n = true ↔ ∃ start, r = some start ∧ start + n ≤ t := by
  cases r <;> simp [ranFor]

theorem extendRun_decide (r : Option Moment) (t : Moment) (met : Prop) [Decidable met] :
    extendRun r t (decide met) = if met then some (r.getD t) else none := by
  simp [extendRun]

/-- A run that lasted stands for a comparison the sample meets. -/
theorem met_of_ranFor {r : Option Moment} {t t' n : Moment} {met : Prop} [Decidable met]
    (h : ranFor (extendRun r t (decide met)) t' n = true) : met := by
  by_contra unmet
  rw [extendRun_decide, if_neg unmet] at h
  cases h

/-- A low run that lasted is that of a level whose threshold lies above the sample. -/
theorem Runs.low_met {r : Runs} {z : Zone} {t t' len : Moment} {volts n : Nat}
    (h : ranFor ((r.low z t volts).get n) t' len = true) :
    n = 1 ∧ volts < z.lv1 ∨ n = 2 ∧ volts < z.lv2 ∨ n = 3 ∧ volts < z.lv3 := by
  match n with
  | 1 => exact .inl ⟨rfl, met_of_ranFor h⟩
  | 2 => exact .inr (.inl ⟨rfl, met_of_ranFor h⟩)
  | 3 => exact .inr (.inr ⟨rfl, met_of_ranFor h⟩)
  | 0 => cases h
  | n + 4 => cases h

/-- A recovery run that lasted is that of a level whose threshold lies 0.5 V below the sample or lower. -/
theorem Runs.recovery_met {r : Runs} {z : Zone} {t t' len : Moment} {volts n : Nat}
    (h : ranFor ((r.recovery z t volts).get n) t' len = true) :
    n = 1 ∧ z.lv1 + 5 ≤ volts ∨ n = 2 ∧ z.lv2 + 5 ≤ volts ∨ n = 3 ∧ z.lv3 + 5 ≤ volts := by
  match n with
  | 1 => exact .inl ⟨rfl, met_of_ranFor h⟩
  | 2 => exact .inr (.inl ⟨rfl, met_of_ranFor h⟩)
  | 3 => exact .inr (.inr ⟨rfl, met_of_ranFor h⟩)
  | 0 => cases h
  | n + 4 => cases h

theorem Runs.highestBelow_lasted (r : Runs) (t : Moment) :
    ∀ m, r.highestBelow t m ≠ 0 → ranFor (r.get (r.highestBelow t m)) t 5000 = true
  | 0, h => absurd rfl h
  | n + 1, h => by
    unfold Runs.highestBelow at h ⊢
    split
    · next lasted => exact lasted
    · next other => rw [if_neg other] at h; exact Runs.highestBelow_lasted r t n h

theorem Runs.le_highestBelow {r : Runs} {t : Moment} {n : Nat} (h : ranFor (r.get n) t 5000 = true) :
    ∀ m, n < m → n ≤ r.highestBelow t m
  | m + 1, lt => by
    unfold Runs.highestBelow
    split
    · exact Nat.le_of_lt_succ lt
    · next other =>
      refine Runs.le_highestBelow h m (lt_of_le_of_ne (Nat.le_of_lt_succ lt) fun e => other ?_)
      rw [← e]; exact h

/-! ### Zone samples (R143 to R148) -/

/-- The voltage level after a sample whose runs are given (R144, R145). -/
def voltageAfter (low recovery : Runs) (t : Moment) (held : Nat) : Nat :=
  let raised := max held (low.highestBelow t 4)
  if 1 ≤ raised ∧ ranFor (recovery.get raised) t 50000 = true then low.highestBelow t raised else raised

/-- The hold after a sample whose runs are given (R148). -/
def holdAfter (high release : Option Moment) (t : Moment) (held : Bool) : Bool :=
  if held then !ranFor release t 1000 else ranFor high t 20

theorem Supervisor.testHold_eq (v : Supervisor) (t : Moment) :
    v.testHold t = { v with hold := holdAfter v.high v.release t v.hold } := by
  obtain ⟨_, _, _, _, _, hold, high, release, _, _, _, _, _⟩ := v
  unfold Supervisor.testHold holdAfter
  cases hold
  · dsimp only
    cases ranFor high t 20 <;> rfl
  · dsimp only
    cases ranFor release t 1000 <;> rfl

theorem State.zoneCompared_eq (s : State) (volts : Nat) :
    let r := s.sup.sample s.cfg.zone s.now volts
    let level := voltageAfter r.low r.recovery s.now s.sup.voltageLevel
    s.zoneCompared volts = { r with
      voltageLevel := level
      hold := holdAfter r.high r.release s.now s.sup.hold
      level := ({ r with voltageLevel := level } : Supervisor).effective } := by
  intro r level
  have fallen : (r.rise s.now).fall s.now = { r with voltageLevel := level } := by
    refine (Supervisor.fall_eq _ _).trans (congrArg (fun n => { r with voltageLevel := n }) ?_)
    unfold Supervisor.fall
    split
    · next h => exact (if_pos h).symm
    · next h => exact (if_neg h).symm
  unfold State.zoneCompared
  rw [Supervisor.testHold_eq]
  dsimp only
  rw [show (s.sup.sample s.cfg.zone s.now volts) = r from rfl, fallen]
  rfl

section
variable {z : Zone} {t : Moment} {volts held : Nat} {low recovery : Runs}

/-- No level has both a low run and a recovery run. -/
theorem not_low_of_recovery {n : Nat} {k l : Moment} (up : ranFor ((recovery.recovery z t volts).get n) t k = true)
    (down : ranFor ((low.low z t volts).get n) t l = true) : False := by
  rcases Runs.recovery_met up with h | h | h <;> rcases Runs.low_met down with k | k | k <;> omega

theorem le_voltageAfter {n : Nat} (h : ranFor ((low.low z t volts).get n) t 5000 = true) :
    n ≤ voltageAfter (low.low z t volts) (recovery.recovery z t volts) t held := by
  have below : n < 4 := by rcases Runs.low_met h with k | k | k <;> omega
  have raised := Nat.le_trans (Runs.le_highestBelow h 4 below) (Nat.le_max_right held _)
  unfold voltageAfter
  dsimp only
  split
  · next fall =>
    refine Runs.le_highestBelow h _ (lt_of_le_of_ne raised fun e => ?_)
    rw [← e] at fall
    exact not_low_of_recovery fall.2 h
  · exact raised

/-- A level that rose has lasted; and a level whose recovery run lasted is the one that was held. -/
theorem eq_held_of_recovery
    (h : ranFor ((recovery.recovery z t volts).get (max held ((low.low z t volts).highestBelow t 4))) t 50000 = true) :
    max held ((low.low z t volts).highestBelow t 4) = held := by
  rcases Nat.le_total ((low.low z t volts).highestBelow t 4) held with le | le
  · exact Nat.max_eq_left le
  · rw [Nat.max_eq_right le] at h ⊢
    refine le_antisymm ?_ le
    by_contra above
    exact not_low_of_recovery h (Runs.highestBelow_lasted _ _ 4 fun zero => above (by omega))

theorem voltageAfter_of_lt (h : held < voltageAfter (low.low z t volts) (recovery.recovery z t volts) t held) :
    ranFor ((low.low z t volts).get (voltageAfter (low.low z t volts) (recovery.recovery z t volts) t held)) t 5000 = true := by
  unfold voltageAfter at h ⊢
  dsimp only at h ⊢
  split
  · next fall =>
    rw [if_pos fall] at h
    exact Runs.highestBelow_lasted _ _ _ (Nat.ne_of_gt (Nat.zero_lt_of_lt h))
  · next stay =>
    rw [if_neg stay] at h
    have raised := (lt_max_iff.1 h).resolve_left (lt_irrefl held)
    rw [Nat.max_eq_right raised.le]
    exact Runs.highestBelow_lasted _ _ _ (Nat.ne_of_gt (Nat.zero_lt_of_lt raised))

theorem recovery_of_voltageAfter_lt (h : voltageAfter (low.low z t volts) (recovery.recovery z t volts) t held < held) :
    ranFor ((recovery.recovery z t volts).get held) t 50000 = true := by
  unfold voltageAfter at h
  dsimp only at h
  split at h
  · next fall =>
    have same := eq_held_of_recovery fall.2
    rw [same] at fall
    exact fall.2
  · exact absurd (Nat.le_max_left held _) (Nat.not_le.2 h)

theorem voltageAfter_of_recovery (ordered : z.lv2 < z.lv1 ∧ z.lv3 < z.lv2)
    (h : ranFor ((recovery.recovery z t volts).get held) t 50000 = true) :
    let level := voltageAfter (low.low z t volts) (recovery.recovery z t volts) t held
    level < held ∧ (level = 0 ∨ ranFor ((low.low z t volts).get level) t 5000 = true) := by
  have raised : max held ((low.low z t volts).highestBelow t 4) = held := by
    refine Nat.max_eq_left ?_
    by_contra above
    have lasted := Runs.highestBelow_lasted (low.low z t volts) t 4 fun zero => above (by omega)
    rcases Runs.recovery_met h with h | h | h <;> rcases Runs.low_met lasted with k | k | k <;> omega
  have pos : 1 ≤ held := by rcases Runs.recovery_met h with h | h | h <;> omega
  have fall : voltageAfter (low.low z t volts) (recovery.recovery z t volts) t held = (low.low z t volts).highestBelow t held := by
    unfold voltageAfter
    dsimp only
    rw [raised]
    exact if_pos ⟨pos, h⟩
  intro level
  rw [show level = _ from fall]
  refine ⟨Runs.highestBelow_lt _ _ held pos, ?_⟩
  rw [or_iff_not_imp_left]
  exact Runs.highestBelow_lasted _ _ held

end

theorem State.deliverZone_sup (s : State) (volts : Nat) : (s.deliverZone volts).sup = s.zoneCompared volts := by
  rw [State.deliverZone_eq, evaluateLevel_evaluateHold]
  split <;> simp [State.zoneSampled]

theorem State.deliverZone_faults (s : State) (volts : Nat) : (s.deliverZone volts).faults = (s.zoneSampled volts).faults := by
  rw [State.deliverZone_eq, evaluateLevel_evaluateHold]
  split <;> simp

theorem flagReport_levels (old new : Nat) (k : FaultKey) : flagReport (decide (1 ≤ old)) (decide (1 ≤ new)) k =
    if old = 0 ∧ 1 ≤ new then [.occur k] else if 1 ≤ old ∧ new = 0 then [.finish k] else [] := by
  rcases old with _ | old <;> rcases new with _ | new <;> simp [flagReport]

theorem flagReport_eq (old new : Bool) (k : FaultKey) : flagReport old new k =
    if old = false ∧ new = true then [.occur k] else if old = true ∧ new = false then [.finish k] else [] := by
  cases old <;> cases new <;> rfl

/-- Settles O46: the runs of the sample, the level and the hold they leave, and the one evaluation of a change. -/
theorem zoneSampleMovesLevels : Obligations.ZoneSampleMovesLevels := by
  intro s volts ok z t run lasted
  have eq := s.zoneCompared_eq volts
  have sup : t.sup = s.zoneCompared volts := s.deliverZone_sup volts
  have faults : t.faults = (s.zoneSampled volts).faults := s.deliverZone_faults volts
  obtain ⟨evaluated, still⟩ := deliverZone_evaluates s volts
  have frame := (delivers_deliverZone s volts).frame
  have lasts (r : Option Moment) (n : Moment) : lasted r n ↔ ranFor r s.now n = true := (ranFor_iff ..).symm
  have low : t.sup.low = s.sup.low.low z s.now volts := by rw [sup, eq]; rfl
  have recovery : t.sup.recovery = s.sup.recovery.recovery z s.now volts := by rw [sup, eq]; rfl
  have high : t.sup.high = extendRun s.sup.high s.now (decide (340 ≤ volts)) := by rw [sup, eq]; rfl
  have release : t.sup.release = extendRun s.sup.release s.now (decide (volts < 320)) := by rw [sup, eq]; rfl
  have level : t.sup.voltageLevel = voltageAfter (s.sup.low.low z s.now volts) (s.sup.recovery.recovery z s.now volts) s.now
      s.sup.voltageLevel := by rw [sup, eq]; rfl
  have hold : t.sup.hold = holdAfter t.sup.high t.sup.release s.now s.sup.hold := by rw [sup, eq]
  have ordered : z.lv2 < z.lv1 ∧ z.lv3 < z.lv2 := by
    obtain ⟨-, -, related⟩ := (WorkingConfig.valid_iff _).1 ok
    simpa [Zone.related] using related
  refine ⟨?_, ?_, ?_, ?_, fun n h => ?_, fun h => ?_, fun h => ?_, fun h => ?_, fun h => ?_, fun h => ?_, ?_, evaluated,
    fun sameLevel sameHold => ?_, ?_, ?_, frame⟩
  · rw [low]; unfold Runs.low; simp only [extendRun_decide]; rfl
  · rw [recovery]; unfold Runs.recovery; simp only [extendRun_decide]; rfl
  · rw [high, extendRun_decide]
  · rw [release, extendRun_decide]
  · rw [lasts, low] at h
    rw [level]
    exact le_voltageAfter h
  · rw [level] at h
    rw [lasts, low, level]
    exact voltageAfter_of_lt h
  · rw [level] at h
    rw [lasts, recovery]
    exact recovery_of_voltageAfter_lt h
  · rw [lasts, recovery] at h
    rw [lasts, low, level]
    exact voltageAfter_of_recovery ordered h
  · rw [hold, h, lasts]; rfl
  · rw [hold, h, lasts]
    unfold holdAfter
    simp
  · rw [sup, eq]; rfl
  · have same := still sameLevel sameHold
    have chans := congrArg State.chans same
    have queue := congrArg State.queue same
    have gens := congrArg State.gens same
    exact ⟨chans, queue, gens⟩
  · rw [sup, eq]; rfl
  · rw [faults, sup]
    unfold State.zoneSampled
    dsimp only
    rw [flagReport_levels, flagReport_eq]

end Sys2Proof.Machine
end

section
/-! SUPPORT. The lines: LINE entries by the bound lines, the recomputing of them, debounces and what a debounced change does
(R39 to R41, R152, R158 to R166). -/

namespace Sys2Proof.Machine

/-! ### The LINE entry of a channel (R40) -/

theorem State.mem_boundLines (s : State) (c : Channel) (i : Fin 4) :
    i ∈ s.boundLines c ↔ s.lines.conf[i].active = true ∧ s.cfg.line[i].mask.testBit c.val = true := by
  refine List.mem_filter.trans ((and_iff_right (mem_allPatterns i)).trans ?_)
  rw [Bool.and_eq_true]
  rfl

theorem State.pairwise_boundLines (s : State) (c : Channel) : (s.boundLines c).Pairwise (· < ·) :=
  List.Pairwise.filter _ (by decide)

theorem LineSettings.flashPattern_eq_none {l : LineSettings} (h : l.command ≤ 4) : l.flashPattern = none ↔ l.command = 0 := by
  unfold LineSettings.flashPattern
  match l.command, h with
  | 0, _ => exact iff_of_true rfl rfl
  | 1, _ => exact iff_of_false nofun nofun
  | 2, _ => exact iff_of_false nofun nofun
  | 3, _ => exact iff_of_false nofun nofun
  | 4, _ => exact iff_of_false nofun nofun

theorem LineSettings.flashPattern_eq_some {l : LineSettings} {p : Pattern} (h : l.command = p.val + 1) :
    l.flashPattern = some p := by
  unfold LineSettings.flashPattern
  rw [h]
  exact dif_pos p.isLt

/-- Settles O49: the bound lines in ascending number, and the command of the list of their patterns. -/
theorem lineEntryFollowsLines : Obligations.LineEntryFollowsLines := by
  intro s c range bound
  have mem (i : Fin 4) : i ∈ s.boundLines c ↔ bound i := s.mem_boundLines c i
  have asks : none ∈ (s.boundLines c).map (fun i => s.cfg.line[i].flashPattern) ↔ ∃ i, bound i ∧ s.cfg.line[i].command = 0 := by
    rw [List.mem_map]
    exact exists_congr fun i => and_congr (mem i) (LineSettings.flashPattern_eq_none (range i))
  refine ⟨fun unbound => ?_, fun on => ?_, fun i p hi flashes least pattern => ?_⟩
  · have empty : s.boundLines c = [] := List.eq_nil_iff_forall_not_mem.2 fun i hi => unbound i ((mem i).1 hi)
    unfold State.lineEntry
    rw [empty]
    rfl
  · unfold State.lineEntry lineCommand
    rw [if_pos (asks.2 on)]
    rfl
  · have first : ∃ rest, s.boundLines c = i :: rest := by
      rcases lines : s.boundLines c with _ | ⟨j, rest⟩
      · have none := (mem i).2 hi
        rw [lines] at none
        cases none
      · have ordered := s.pairwise_boundLines c
        have stands := (mem i).2 hi
        have lowest := least j ((mem j).1 (by rw [lines]; exact List.mem_cons_self))
        rw [lines] at ordered stands
        rcases List.mem_cons.1 stands with e | later
        · rw [e]; exact ⟨rest, rfl⟩
        · exact absurd ((List.pairwise_cons.1 ordered).1 i later) (not_lt.2 lowest)
    obtain ⟨rest, lines⟩ := first
    unfold State.lineEntry lineCommand
    rw [if_neg fun k => by
      obtain ⟨j, hj, zero⟩ := asks.1 k
      exact flashes j hj zero]
    rw [lines, List.map_cons, LineSettings.flashPattern_eq_some pattern]
    rfl

/-! ### LINE entries recomputed (R41, R44) -/

/-- A recompute does what R41 and R44 say. -/
theorem State.linesRecomputed (s : State) (concerned : Channel → Bool) : s.LinesRecomputed (s.recomputeLines concerned) concerned := by
  have chan := s.withLineEntries_chan concerned
  have wrote := s.withLineEntries_frame concerned
  rw [State.recomputeLines_eq]
  generalize s.withLineEntries concerned = u at chan wrote ⊢
  obtain ⟨frame, kept, others, settled⟩ := evaluateChanged_evaluated u s
  generalize u.evaluateChanged s = t at frame kept others settled ⊢
  have same : s.SameButChannels t := by
    unfold State.SameButChannels at frame ⊢
    rw [frame, wrote]
  have entry (c : Channel) : t.lineEntry c = s.lineEntry c := s.lineEntry_congr (by rw [same]) (by rw [same]) c
  refine ⟨same, fun c => ⟨fun h => ?_, fun h => ?_, fun h => ?_, fun h => ?_, (kept c).but_demand ?_ ?_⟩⟩
  · rw [(kept c).1, chan, if_pos h, entry]
    rfl
  · rw [(kept c).1, chan, h]
    rfl
  · rw [(kept c).1] at h
    exact settled c (List.mem_filter.2 ⟨mem_allChannels c, h⟩)
  · rw [(kept c).1] at h
    have unchanged : u.chan c = s.chan c := by
      rw [chan] at h ⊢
      by_cases k : concerned c = true
      · rw [if_pos k] at h ⊢
        unfold ChannelState.withList at h ⊢
        rw [show ({ (s.chan c).demand.list with line := s.lineEntry c } : DemandList) = (s.chan c).demand.list from h]
      · rw [if_neg k]
    refine (others c fun mem => ?_).of_eq unchanged (by rw [wrote])
    have differs := (List.mem_filter.1 mem).2
    rw [h] at differs
    exact absurd differs (Bool.eq_false_iff.1 (DemandList.differs_self _))
  · rw [chan]; split <;> rfl
  · rw [chan]; split <;> rfl

/-! ### Debounces (R158 to R160) -/

theorem State.setLine_setLine (s : State) (l : Line) (r q : LineRecord) : (s.setLine l r).setLine l q = s.setLine l q := by
  cases l with
  | conf i => simp [State.setLine]
  | emg => rfl
  | svc => rfl

theorem State.raw_setLine (s : State) (l : Line) (r : LineRecord) : (s.setLine l r).raw l = decide (r.high = s.activeLevel l) := by
  unfold State.raw
  rw [State.line_setLine_self, show (s.setLine l r).activeLevel l = s.activeLevel l by cases l <;> rfl]
  cases r.high <;> cases s.activeLevel l <;> rfl

section
variable {s : State} {l : Line} {high : Bool}

/-- A level change, by the raw state compared with the debounced one (R159, R160). -/
theorem exec_lineLevelChange (differs : (s.line l).high ≠ high) : exec (.lineLevelChange l high) s = .next
    (if decide (high = s.activeLevel l) = (s.line l).active then s.setLine l ⟨high, (s.line l).active, none⟩
    else if s.debounceLength l = 0 then (s.setLine l ⟨high, decide (high = s.activeLevel l), none⟩).handOn l false
    else s.setLine l ⟨high, (s.line l).active, some s.now⟩) := by
  have length (r : LineRecord) : (s.setLine l r).debounceLength l = s.debounceLength l := by cases l <;> rfl
  have now (r : LineRecord) : (s.setLine l r).now = s.now := by cases l <;> rfl
  change execLineLevelChange l high s = _
  unfold execLineLevelChange
  rw [if_neg differs]
  unfold State.reconsider State.settle
  rw [State.raw_setLine, State.line_setLine_self, length, now, State.setLine_setLine, State.setLine_setLine,
    State.setLine_setLine]

end

/-- Settles O47: the comparison of the raw state; at length 0, which only L0 to L3 can have, a recompute. -/
theorem levelChangeStartsDebounce : Obligations.LevelChangeStartsDebounce := by
  intro s l high activeLevel raw r
  have active : s.activeLevel l = activeLevel := by cases l <;> rfl
  refine ⟨fun same => congrArg _ (if_pos same), fun differs agrees => ?_, fun differs disagrees long => ?_,
    fun i line differs disagrees short => ?_⟩
  · rw [exec_lineLevelChange differs, active]
    exact congrArg _ (if_pos agrees)
  · rw [exec_lineLevelChange differs, active]
    exact congrArg _ ((if_neg disagrees).trans (if_neg long))
  · have zero : s.debounceLength l = 0 := by rw [line]; exact congrArg (10 * ·) short
    refine ⟨(s.setLine l ⟨high, raw, none⟩).handOn l false, ?_, ?_⟩
    · rw [exec_lineLevelChange differs, active]
      exact congrArg _ ((if_neg disagrees).trans (if_pos zero))
    · rw [line]
      exact State.linesRecomputed _ _

/-! ### The loss of SVC (R39, R152, R166) -/

/-- What is kept of a channel by two events that each keep all but its demand record. -/
theorem ChannelState.Kept.trans_but_demand {x y z : ChannelState} (h : ({ x with demand := y.demand } : ChannelState).Kept y)
    (k : ({ y with demand := z.demand } : ChannelState).Kept z) : ({ x with demand := z.demand } : ChannelState).Kept z := by
  obtain ⟨-, -, current, voltage, prot⟩ := h
  obtain ⟨-, -, current', voltage', prot'⟩ := k
  refine ⟨rfl, rfl, current'.trans current, voltage'.trans voltage, ?_⟩
  rw [prot', prot]

/-- What the removal of the SERVICE entries makes of s. -/
structure ServiceRemoved (s t : State) : Prop where
  frame : s.SameButChannels t
  list : ∀ c, (t.chan c).demand.list = { (s.chan c).demand.list with net := (s.chan c).demand.list.net.set .service none }
  settled : ∀ c, (s.chan c).demand.list.net.service ≠ none → t.Settled c
  others : ∀ c, (s.chan c).demand.list.net.service = none → s.SameOrAdmitted t c
  kept : ∀ c, ({ s.chan c with demand := (t.chan c).demand } : ChannelState).Kept (t.chan c)

theorem State.serviceRemoved (s : State) : ServiceRemoved s s.removeService := by
  have wrote := (byChannel_removeEntry s .service).foldl_keeps allChannels s rfl
  have chan (c : Channel) := (byChannel_removeEntry s .service).foldl_chan nodup_allChannels (s := s) rfl c
  unfold State.removeService
  generalize allChannels.foldl (fun t c => t.removeEntry .service c) s = u at wrote chan ⊢
  obtain ⟨frame, kept, others, settled⟩ := evaluateChanged_evaluated u s
  generalize u.evaluateChanged s = t at frame kept others settled ⊢
  have own (c : Channel) : u.chan c = (s.chan c).withList { (s.chan c).demand.list with
      net := (s.chan c).demand.list.net.set .service none } := (chan c).trans (if_pos (mem_allChannels c))
  have mem (c : Channel) : c ∈ (allChannels.filter fun c => (s.chan c).demand.list.differs (u.chan c).demand.list) ↔
      (s.chan c).demand.list.net.service ≠ none := by
    rw [List.mem_filter, own]
    refine (and_iff_right (mem_allChannels c)).trans ?_
    exact (iff_of_eq (congrArg (· = true) (DemandList.differs_removed _ .service))).trans Option.isSome_iff_ne_none
  refine ⟨?_, fun c => ?_, fun c h => settled c ((mem c).2 h), fun c h => ?_, fun c => (kept c).but_demand ?_ ?_⟩
  · unfold State.SameButChannels at frame ⊢
    rw [frame, wrote]
  · rw [(kept c).1, own]; rfl
  · refine (others c fun k => (mem c).1 k h).of_eq ?_ (by rw [wrote])
    rw [own, PerSource.set_get_of_eq (src := .service) h]
    rfl
  · rw [own]; rfl
  · rw [own]; rfl

/-- What the end of the SERVICE floor, if it stands, makes of s. -/
structure ServiceFloorEnded (s t : State) : Prop where
  frame : t = { s with chans := t.chans, queue := t.queue, gens := t.gens, sup := t.sup }
  absent : s.sup.floors.service = none → t.sup = s.sup
  present : s.sup.floors.service ≠ none → t.sup = { s.sup with floors := s.sup.floors.set .service none, level := t.sup.level }
    ∧ t.sup.level = max (max t.sup.thermalLevel t.sup.voltageLevel) t.sup.floorComponent
  settled : t.sup.level ≠ s.sup.level → t.AllSettled
  same : t.sup.level = s.sup.level → t.chans = s.chans ∧ t.queue = s.queue ∧ t.gens = s.gens
  kept : ∀ c, (s.chan c).Kept (t.chan c)

theorem State.serviceFloorEnded (s : State) : ServiceFloorEnded s s.endServiceFloor := by
  unfold State.endServiceFloor
  rcases floor : s.sup.floors.service with _ | f
  · exact ⟨rfl, fun _ => rfl, fun h => absurd floor h, fun h => absurd rfl h, fun _ => ⟨rfl, rfl, rfl⟩, fun _ => .refl _⟩
  · obtain ⟨frame, sup, level, moved, same⟩ := setFloor_changes s .service none
    refine ⟨frame, fun h => ?_, fun _ => ⟨sup, level⟩, fun h => ?_, same, fun c => ?_⟩
    · rw [floor] at h; cases h
    · obtain ⟨-, -, -, -, settled⟩ := moved h
      exact fun c => settled c (mem_allChannels c)
    · by_cases h : (s.setFloor .service none).sup.level = s.sup.level
      · have chan : (s.setFloor .service none).chan c = s.chan c := by
          unfold State.chan; rw [(same h).1]
        dsimp only
        rw [chan]; exact .refl _
      · obtain ⟨-, -, kept, -⟩ := moved h
        exact kept c

/-- The end of a floor that leaves L unsettles nothing. -/
theorem ServiceFloorEnded.quiet {s t : State} (h : ServiceFloorEnded s t) (level : t.sup.level = s.sup.level) (c : Channel) :
    Quiet s t c := by
  obtain ⟨chans, queue, gens⟩ := h.same level
  have hold : t.sup.hold = s.sup.hold := by
    by_cases floor : s.sup.floors.service = none
    · rw [h.absent floor]
    · rw [(h.present floor).1]
  have frame : t = { s with sup := t.sup } := by
    have frame := h.frame
    rwa [chans, queue, gens] at frame
  rw [frame]
  exact quiet_sup hold level c

/-- What the loss of SVC makes of s, in either order. -/
structure ServiceLost (s t : State) : Prop where
  frame : t = { s with chans := t.chans, queue := t.queue, gens := t.gens, sup := t.sup }
  absent : s.sup.floors.service = none → t.sup = s.sup
  present : s.sup.floors.service ≠ none → t.sup = { s.sup with floors := s.sup.floors.set .service none, level := t.sup.level }
    ∧ t.sup.level = max (max t.sup.thermalLevel t.sup.voltageLevel) t.sup.floorComponent
  allSettled : t.sup.level ≠ s.sup.level → t.AllSettled
  list : ∀ c, (t.chan c).demand.list = { (s.chan c).demand.list with net := (s.chan c).demand.list.net.set .service none }
  settled : ∀ c, (s.chan c).demand.list.net.service ≠ none → t.Settled c
  others : t.sup.level = s.sup.level → ∀ c, (s.chan c).demand.list.net.service = none → s.SameOrAdmitted t c
  kept : ∀ c, ({ s.chan c with demand := (t.chan c).demand } : ChannelState).Kept (t.chan c)

/-- First the floor, then the entries. -/
theorem ServiceFloorEnded.removed {s u t : State} (h : ServiceFloorEnded s u) (k : ServiceRemoved u t)
    (keeps : u.AllSettled → t.AllSettled) : ServiceLost s t := by
  have sup : t.sup = u.sup := by rw [k.frame]
  refine ⟨?_, fun f => sup.trans (h.absent f), fun f => by rw [sup]; exact h.present f, fun l => ?_, fun c => ?_, fun c e => ?_,
    fun l c e => ?_, fun c => ((h.kept c).but_demand rfl rfl).trans_but_demand (k.kept c)⟩
  · rw [k.frame, h.frame]
  · rw [sup] at l; exact keeps (h.settled l)
  · rw [k.list, (h.kept c).1]
  · exact k.settled c (by rw [(h.kept c).1]; exact e)
  · rw [sup] at l
    obtain ⟨chans, queue, -⟩ := h.same l
    exact (k.others c (by rw [(h.kept c).1]; exact e)).of_eq (by unfold State.chan; rw [chans]) queue

/-- First the entries, then the floor. -/
theorem ServiceRemoved.floorEnded {s u t : State} (h : ServiceRemoved s u) (k : ServiceFloorEnded u t) : ServiceLost s t := by
  have sup : u.sup = s.sup := by rw [h.frame]
  have chan (l : t.sup.level = u.sup.level) (c : Channel) : t.chan c = u.chan c := by
    unfold State.chan; rw [(k.same l).1]
  refine ⟨?_, fun f => ?_, fun f => ?_, fun l => k.settled (by rw [sup]; exact l), fun c => ?_, fun c e => ?_, fun l c e => ?_,
    fun c => (h.kept c).trans_but_demand ((k.kept c).but_demand rfl rfl)⟩
  · rw [k.frame, h.frame]
  · exact (k.absent (by rw [sup]; exact f)).trans sup
  · have present := k.present (by rw [sup]; exact f)
    rw [sup] at present
    exact present
  · rw [(k.kept c).1, h.list]
  · by_cases l : t.sup.level = u.sup.level
    · exact (k.quiet l c).settled (h.settled c e)
    · exact k.settled l c
  · have same := h.others c e
    rw [← sup] at l
    unfold State.SameOrAdmitted at same ⊢
    rw [chan l c]
    exact same

theorem State.serviceLost (s : State) (floorFirst : Bool) : ServiceLost s (s.loseService floorFirst) := by
  cases floorFirst
  · exact s.serviceRemoved.floorEnded s.removeService.serviceFloorEnded
  · exact s.serviceFloorEnded.removed s.endServiceFloor.serviceRemoved (settles_removeService _)

/-- Settles O48: the record settled, and what the line hands on. -/
theorem debounceExpiryHandsOn : Obligations.DebounceExpiryHandsOn := by
  intro s l floorFirst start h now' raw moved
  have taken : exec (.debounceExpiry l floorFirst) s = .next (moved.handOn l floorFirst) := by
    change execDebounceExpiry l floorFirst s = _
    unfold execDebounceExpiry
    rw [h]
    rfl
  have own : moved.line l = ⟨(s.line l).high, raw, none⟩ := State.line_setLine_self ..
  refine ⟨_, taken, fun i line => ?_, fun line active clear => ?_, fun line same => ?_, fun line active => ?_,
    fun line inactive => ?_⟩
  · subst line
    exact State.linesRecomputed _ _
  · subst line
    have hands : moved.handOn .emg floorFirst = moved.setLatch :=
      if_pos (Bool.and_eq_true_iff.2 ⟨(congrArg LineRecord.active own).trans active, congrArg not clear⟩)
    rw [hands]
    exact evaluateEach_evaluatesTo _ allChannels
  · subst line
    refine if_neg fun k => ?_
    obtain ⟨active, clear⟩ := Bool.and_eq_true_iff.1 k
    replace active : raw = true := (congrArg LineRecord.active own).symm.trans active
    rcases same with same | same
    · exact Bool.false_ne_true (same.symm.trans active)
    · exact Bool.false_ne_true ((congrArg not same).symm.trans clear)
  · subst line
    exact if_pos ((congrArg LineRecord.active own).trans active)
  · subst line
    have hands : moved.handOn .svc floorFirst = moved.loseService floorFirst :=
      if_neg (Bool.eq_false_iff.1 ((congrArg LineRecord.active own).trans inactive))
    rw [hands]
    have lost := moved.serviceLost floorFirst
    exact ⟨lost.frame, lost.absent, lost.present, lost.allSettled, fun c => ⟨lost.list c, lost.settled c,
      fun level => lost.others level c, lost.kept c⟩⟩

end Sys2Proof.Machine
end

section
/-! SUPPORT. The commands that release entries, clear the protection of channels, and read channels, entries, the zone, the
fault list and the limit-cause logs (R42, R43, R64, R65, R109, R117, R156, R178). -/

namespace Sys2Proof.Machine

/-! ### RELEASE (R42, R188) -/

theorem exec_release_taken {s : State} {rx : RxHeader} {src : NetSource} (h : s.Takes rx src) (args : Vector Byte 7) :
    exec (.release rx args) s =
      .next ((State.release args[0].toNat args[1].toNat args[2].toNat src s).finish 1 src) :=
  congrArg Host.Outcome.next (State.takeCommand_taken h 1 _)

theorem releaseScope_channel {a : Nat} (h : a ≤ 15) (m : Nat) : releaseScope 0 a m = some (a, 0) := if_pos h

/-- The base of a block aligned down to its size (R42). -/
theorem releaseScope_block {a m : Nat} (ha : a ≤ 15) (hm : m ≤ 4) :
    releaseScope 1 a m = some (a / 2 ^ m * 2 ^ m, m) := by
  have aligned : a - a % 2 ^ m = a / 2 ^ m * 2 ^ m := by
    have := Nat.div_add_mod' a (2 ^ m)
    omega
  rw [← aligned]
  exact if_pos ⟨ha, hm⟩

theorem releaseScope_all (a m : Nat) : releaseScope 2 a m = some (0, 4) := rfl

theorem releaseScope_none {scope a m : Nat} (h : 2 < scope ∨ scope < 2 ∧ 15 < a ∨ scope = 1 ∧ 4 < m) :
    releaseScope scope a m = none := by
  match scope, h with
  | 0, h => exact if_neg (by omega)
  | 1, h => exact if_neg (by omega)
  | 2, h => omega
  | _ + 3, _ => rfl

/-- The channels that lose an entry, as the statement names them. -/
def State.losing (s : State) (src : NetSource) (base exponent : Nat) : List Channel :=
  allChannels.filter fun c => decide (base ≤ c.val ∧ c.val < base + 2 ^ exponent)
    && ((s.chan c).demand.list.net.get src).isSome

theorem State.released_eq (s : State) (src : NetSource) (base exponent : Nat) :
    s.released src base exponent = s.losing src base exponent := by
  unfold State.released State.losing
  simp only [Bool.decide_and]

/-- What the removal of the sender's entries in a scope, and the evaluations after it, leave. -/
structure Removes (s : State) (src : NetSource) (losing : List Channel) (u t : State) : Prop where
  frame : u = { s with chans := u.chans }
  chan : ∀ c, u.chan c =
    if c ∈ losing then
      { s.chan c with demand := { (s.chan c).demand with
        list := { (s.chan c).demand.list with net := (s.chan c).demand.list.net.set src none } } }
    else s.chan c
  evaluated : u.EvaluatesTo t losing
  others : ∀ c, c ∉ losing → s.SameOrAdmitted t c

theorem State.removes (s : State) (src : NetSource) (base exponent : Nat) :
    let u := (s.losing src base exponent).foldl (fun t c => t.removeEntry src c) s
    Removes s src (s.losing src base exponent) u (u.evaluateChanged s) := by
  intro u
  have nodup : (s.losing src base exponent).Nodup := nodup_allChannels.filter _
  have frame : u = { s with chans := u.chans } := (byChannel_removeEntry s src).foldl_keeps _ s rfl
  have chan (c : Channel) := (byChannel_removeEntry s src).foldl_chan nodup (s := s) rfl c
  change ∀ c, u.chan c = _ at chan
  have changed : (allChannels.filter fun c => (s.chan c).demand.list.differs (u.chan c).demand.list) =
      s.losing src base exponent := by
    refine List.filter_congr fun c hc => ?_
    rw [chan c]
    by_cases lost : c ∈ s.losing src base exponent
    · rw [if_pos lost]
      obtain ⟨_, lost⟩ := List.mem_filter.1 lost
      rw [lost]
      exact (DemandList.differs_removed _ src).trans (Bool.and_eq_true_iff.1 lost).2
    · rw [if_neg lost, DemandList.differs_self]
      exact (Bool.eq_false_iff.2 fun k => lost (List.mem_filter.2 ⟨hc, k⟩)).symm
  have evaluated : u.EvaluatesTo (u.evaluateChanged s) (s.losing src base exponent) := by
    unfold State.evaluateChanged
    rw [changed]
    exact evaluateEach_evaluatesTo u _
  exact ⟨frame, chan, evaluated, fun c h => (evaluated.2.2.2.1 c h).of_eq ((chan c).trans (if_neg h)) (by rw [frame])⟩

theorem State.release_of_scope {s : State} {scope a m base exponent : Nat} (h : releaseScope scope a m = some (base, exponent))
    (src : NetSource) :
    State.release scope a m src s =
      ⟨((s.losing src base exponent).foldl (fun t c => t.removeEntry src c) s).evaluateChanged s,
        answerOk [base, exponent, (s.losing src base exponent).length]⟩ := by
  unfold State.release
  rw [h]
  dsimp only
  rw [State.released_eq]

/-- Settles O50: the scope of the arguments, the entries removed in it, and the evaluations that follow. -/
theorem releaseRemovesEntries : Obligations.ReleaseRemovesEntries := by
  intro s rx args src taken scope a m removes
  have removes_of {base exponent : Nat} (h : releaseScope scope a m = some (base, exponent)) : removes base exponent := by
    have made := s.removes src base exponent
    refine ⟨_, _, ?_, made.frame, made.chan, made.evaluated, made.others⟩
    rw [exec_release_taken taken, State.release_of_scope h]
    exact congrArg Host.Outcome.next (Taken.finish_some _ .ok _ (by decide) src)
  refine ⟨fun channel ha => removes_of ?_, fun block ha hm => removes_of ?_, fun all => removes_of ?_, fun out => ?_⟩
  · rw [channel]; exact releaseScope_channel ha m
  · rw [block]; exact releaseScope_block ha hm
  · rw [all]; exact releaseScope_all a m
  · rw [exec_release_taken taken]
    unfold State.release
    rw [releaseScope_none out]
    exact congrArg Host.Outcome.next (Taken.finish_some _ .range _ (by decide) src)

/-! ### CLEAR_CHANNEL (R109, R110, R189) -/

theorem exec_clearChannel_taken {s : State} {rx : RxHeader} {src : NetSource} (h : s.Takes rx src) (args : Vector Byte 7) :
    exec (.clearChannel rx args) s = .next ((State.clear args[0].toNat src s).finish 2 src) :=
  congrArg Host.Outcome.next (State.takeCommand_taken h 2 _)

theorem channelOf_val (c : Channel) : channelOf c.val = some c := dif_pos c.isLt

theorem channelOf_eq_none {n : Nat} (h : 15 < n) : channelOf n = none := dif_neg (by omega)

theorem State.clear_channel (s : State) (c : Channel) (src : NetSource) : State.clear c.val src s = s.clearOne src c := by
  unfold State.clear
  rw [channelOf_val]

/-- The state a LOCKOUT is left for (R110). -/
def State.unlocked (s : State) (c : Channel) : ProtState :=
  if (s.chan c).prot.heat < Profile.rearmLevel (s.profile c) then .ready else .trippedOverload

theorem State.unlocked_not_locked (s : State) (c : Channel) : (s.unlocked c).locked = false := by
  unfold State.unlocked
  split <;> rfl

theorem State.clearProtection_unlocked {s : State} {c : Channel} (h : (s.chan c).prot.state.locked = false) :
    s.clearProtection c = s.setChan c { s.chan c with prot := { (s.chan c).prot with retries := 0 } } := by
  rw [State.clearProtection_eq, ChannelState.cleared, h]
  rfl

theorem State.clearProtection_locked {s : State} {c : Channel} (h : (s.chan c).prot.state.locked = true) :
    s.clearProtection c = ({ s with faults := s.faults.finish s.now (.lockout c) } : State).setChan c
      { s.chan c with prot := { (s.chan c).prot with retries := 0, state := s.unlocked c } } := by
  rw [State.clearProtection_eq, ChannelState.cleared, h]
  rfl

/-- The faults that the clearing of a row of channels finishes, in its order (R110). -/
theorem clearProtection_faults : ∀ {l : List Channel} (s : State), l.Nodup →
    (l.foldl State.clearProtection s).faults =
      (l.filter fun c => (s.chan c).prot.state.locked).foldl (fun f c => f.finish s.now (.lockout c)) s.faults
  | [], _, _ => rfl
  | c :: l, s, nodup => by
    obtain ⟨notin, nodup⟩ := List.nodup_cons.1 nodup
    have rest : (l.filter fun d => ((s.clearProtection c).chan d).prot.state.locked) =
        l.filter fun d => (s.chan d).prot.state.locked := by
      refine List.filter_congr fun d hd => ?_
      rw [State.clearProtection_eq, State.chan_setChan_ne _ _ fun (k : d = c) => notin (k ▸ hd)]
      rfl
    have now : (s.clearProtection c).now = s.now := by rw [State.clearProtection_eq]; rfl
    rw [List.foldl_cons, clearProtection_faults (s.clearProtection c) nodup, rest, now, List.filter_cons]
    by_cases locked : (s.chan c).prot.state.locked = true
    · rw [if_pos locked, State.clearProtection_locked locked]
      rfl
    · rw [if_neg locked, State.clearProtection_unlocked (Bool.eq_false_iff.2 locked)]
      rfl

/-- What the clearing of one channel, and the evaluation of a LOCKOUT left, leave. -/
structure Clears (s t : State) (c : Channel) : Prop where
  retries : (t.chan c).prot.retries = 0
  heat : (t.chan c).prot.heat = (s.chan c).prot.heat
  free : (s.chan c).prot.state.locked = false →
    t = s.setChan c { s.chan c with prot := { (s.chan c).prot with retries := 0 } }
  evaluated : (s.chan c).prot.state.locked = true →
    (({ s with faults := s.faults.finish s.now (.lockout c) } : State).setChan c
      { s.chan c with prot := { (s.chan c).prot with retries := 0, state := s.unlocked c } }).EvaluatesTo t [c]
  state : (s.chan c).prot.state.locked = true → (t.chan c).prot.state = s.unlocked c
  others : (s.chan c).prot.state.locked = true → ∀ d, d ≠ c → s.SameOrAdmitted t d

theorem State.clears (s : State) (c : Channel) : Clears s ((s.clearProtection c).evaluateMoved s c) c := by
  unfold State.evaluateMoved
  cases locked : (s.chan c).prot.state.locked with
  | false =>
    rw [State.clearProtection_unlocked locked, if_pos (by rw [State.chan_setChan_self])]
    refine ⟨?_, ?_, fun _ => rfl, fun k => ?_, fun k => ?_, fun k => ?_⟩
    · rw [State.chan_setChan_self]
    · rw [State.chan_setChan_self]
    all_goals rw [locked] at k; cases k
  | true =>
    have moved : s.unlocked c ≠ (s.chan c).prot.state := fun k =>
      Bool.false_ne_true ((s.unlocked_not_locked c).symm.trans ((congrArg ProtState.locked k).trans locked))
    rw [State.clearProtection_locked locked, if_neg (by rw [State.chan_setChan_self]; exact moved)]
    generalize base : ({ s with faults := s.faults.finish s.now (.lockout c) } : State).setChan c
      { s.chan c with prot := { (s.chan c).prot with retries := 0, state := s.unlocked c } } = u
    have own : u.chan c = { s.chan c with prot := { (s.chan c).prot with retries := 0, state := s.unlocked c } } := by
      rw [← base, State.chan_setChan_self]
    have made : u.EvaluatesTo (u.evaluate c) [c] := evaluateEach_evaluatesTo u [c]
    obtain ⟨-, -, -, -, prot⟩ := (evaluates u c).kept c
    rw [own] at prot
    refine ⟨by rw [prot], by rw [prot], fun k => ?_, fun _ => base ▸ made, fun _ => by rw [prot], fun _ d hd => ?_⟩
    · rw [locked] at k; cases k
    · refine (made.2.2.2.1 d fun k => hd (List.mem_singleton.1 k)).of_eq ?_ (by rw [← base]; rfl)
      rw [← base, State.chan_setChan_ne _ _ hd]
      rfl

/-- What the clearing of the channels that may be cleared, and the evaluations of those that left LOCKOUT, leave. -/
structure ClearsAll (s : State) (cleared left : List Channel) (u t : State) : Prop where
  frame : u = { s with chans := u.chans, faults := left.foldl (fun f c => f.finish s.now (.lockout c)) s.faults }
  chan : ∀ c, u.chan c = if c ∈ cleared then (s.chan c).cleared (s.profile c) else s.chan c
  evaluated : u.EvaluatesTo t left

theorem State.clearsAll (s : State) (src : NetSource) :
    let cleared := allChannels.filter (s.mayClear src)
    let left := cleared.filter fun c => (s.chan c).prot.state.locked
    ClearsAll s cleared left (cleared.foldl State.clearProtection s)
      ((cleared.foldl State.clearProtection s).evaluateEach left) := by
  intro cleared left
  have nodup : cleared.Nodup := nodup_allChannels.filter _
  refine ⟨?_, (byChannel_clear s).foldl_chan nodup (s := s) rfl, evaluateEach_evaluatesTo _ left⟩
  have frame := (byChannel_clear s).foldl_keeps cleared s rfl
  rw [clearProtection_faults s nodup] at frame
  exact frame

/-- Settles O51: one channel cleared, all cleared, and the selectors that name none. -/
theorem clearChannelEndsLockout : Obligations.ClearChannelEndsLockout := by
  intro s rx args src taken may unlocked cleared left
  refine ⟨fun c selector => ?_, fun all => ?_, fun low high => ?_⟩
  · intro r items
    have taken := exec_clearChannel_taken taken args
    rw [selector, State.clear_channel] at taken
    refine ⟨fun (allowed : s.mayClear src c = true) => ?_, fun (refused : s.mayClear src c = false) => ?_⟩
    · have made := s.clears c
      refine ⟨_, ?_, made.retries, made.heat, fun free => made.free ?_, fun k lock => ?_⟩
      · rw [taken]
        unfold State.clearOne
        rw [if_pos allowed]
        exact congrArg Host.Outcome.next (Taken.finish_some _ .ok _ (by decide) src)
      · exact Bool.eq_false_iff.2 fun locked => (ProtState.locked_iff _).1 locked |>.elim free
      · have locked : (s.chan c).prot.state.locked = true := (ProtState.locked_iff _).2 ⟨k, lock⟩
        exact ⟨made.evaluated locked, made.state locked, made.others locked⟩
    · rw [taken]
      unfold State.clearOne
      rw [if_neg (Bool.eq_false_iff.1 refused)]
      exact congrArg Host.Outcome.next (Taken.finish_some _ .notPermitted _ (by decide) src)
  · have made := s.clearsAll src
    have mem (c : Channel) : c ∈ cleared ↔ may c = true := by
      refine List.mem_filter.trans (and_iff_right (mem_allChannels c))
    refine ⟨_, _, ?_, made.frame, fun c => ?_, made.evaluated, fun c refused => ?_, fun c allowed free => ?_⟩
    · rw [exec_clearChannel_taken taken, all]
      exact congrArg Host.Outcome.next (Taken.finish_some _ .ok _ (by decide) src)
    · rw [made.chan]
      exact if_congr (mem c) rfl rfl
    · have notin : c ∉ cleared := fun k => Bool.eq_false_iff.1 refused ((mem c).1 k)
      refine (made.evaluated.2.2.2.1 c fun k => notin (List.mem_filter.1 k).1).of_eq ((made.chan c).trans (if_neg notin)) ?_
      rw [made.frame]
    · exact made.evaluated.2.2.2.1 c fun k => Bool.eq_false_iff.1 free (List.mem_filter.1 k).2
  · rw [exec_clearChannel_taken taken]
    unfold State.clear
    rw [channelOf_eq_none (by omega)]
    dsimp only
    rw [if_neg (by omega)]
    exact congrArg Host.Outcome.next (Taken.finish_some _ .range _ (by decide) src)

end Sys2Proof.Machine
end

section
/-! SUPPORT. The commands that read: QUERY_CHANNEL, QUERY_PROTECTION, QUERY_ENTRY, QUERY_ZONE, READ_FAULT and READ_LIMIT_LOG
(R43, R64, R65, R117, R156, R178), and how their items stand in bytes (R187). -/

namespace Sys2Proof.Machine

/-! ### Fields of bytes (R187) -/

theorem field_of_lt {n width : Nat} (h : n < 2 ^ width) (pos : Nat) : field pos width n = n * 2 ^ pos := by
  unfold field
  rw [Nat.mod_eq_of_lt h]

theorem flagBit_lt (b : Bool) : flagBit b < 2 ^ 1 := by cases b <;> decide

/-- Two bytes together give their value. -/
theorem bytes2_value {n : Nat} (h : n < 65536) : n % 256 + 256 * (n / 256 % 256) = n := by omega

/-! ### The codes fit their fields (R186) -/

theorem Ask.code_lt (a : Ask) : a.code < 4 := by cases a <;> simp [Ask.code]

theorem winnerCommand_lt (w : Option Winner) : winnerCommand w < 8 := by
  cases w with
  | none => decide
  | some w =>
    unfold winnerCommand WonCommand.code
    dsimp only
    split
    · next a _ => have := a.code_lt; omega
    · decide

theorem NetSource.code_lt (src : NetSource) : NetSource.code src < 5 := by cases src <;> decide

theorem Source.code_lt (x : Source) : Source.code x < 8 := by
  cases x with
  | net src => exact Nat.lt_trans (NetSource.code_lt src) (by decide)
  | line => decide
  | fallback => decide

theorem Class.code_lt (c : Sys2Proof.Class) : Class.code c < 8 := by cases c <;> decide

theorem winnerSource_lt (w : Option Winner) : winnerSource w < 8 := by
  cases w with
  | none => decide
  | some w => exact Source.code_lt w.source

theorem winnerClass_lt (w : Option Winner) : winnerClass w < 8 := by
  cases w with
  | none => decide
  | some w => exact Class.code_lt w.cls

theorem OutState.code_lt (o : OutState) : o.code < 4 := by cases o <;> simp [OutState.code]

theorem OutState.modeCode_lt (o : OutState) : o.modeCode < 4 := by cases o <;> simp [OutState.modeCode]

theorem Granted.code_lt (g : Granted) : g.code < 4 := by cases g <;> simp [Granted.code]

theorem ProtState.code_lt (p : ProtState) : p.code < 4 := by cases p <;> simp [ProtState.code]

theorem ProtState.kindCode_lt (p : ProtState) : p.kindCode < 4 := by
  cases p with
  | lockout k => cases k <;> decide
  | _ => simp [ProtState.kindCode]

theorem EntryCommand.code_lt (e : EntryCommand) : e.code < 8 := by
  cases e with
  | ask a => have := a.code_lt; unfold EntryCommand.code; dsimp only; omega
  | pulse n p => exact (by decide : 4 < 8)

theorem ResetCause.code_lt (r : ResetCause) : r.code < 4 := by cases r <;> decide

/-! ### QUERY_CHANNEL and QUERY_PROTECTION (R65, R117) -/

theorem exec_queryChannel_taken {s : State} {rx : RxHeader} {src : NetSource} (h : s.Takes rx src) (args : Vector Byte 7) :
    exec (.queryChannel rx args) s = .next ((State.queryOf State.channelItems args[0].toNat src s).finish 7 src) :=
  congrArg Host.Outcome.next (State.takeCommand_taken h 7 _)

theorem exec_queryProtection_taken {s : State} {rx : RxHeader} {src : NetSource} (h : s.Takes rx src)
    (args : Vector Byte 7) :
    exec (.queryProtection rx args) s = .next ((State.queryOf State.protectionItems args[0].toNat src s).finish 8 src) :=
  congrArg Host.Outcome.next (State.takeCommand_taken h 8 _)

theorem State.queryOf_channel (items : State → Channel → List Nat) (s : State) (c : Channel) (src : NetSource) :
    State.queryOf items c.val src s = ⟨s, answerOk (items s c)⟩ := by
  unfold State.queryOf
  rw [channelOf_val]

theorem State.queryOf_out (items : State → Channel → List Nat) (s : State) {n : Nat} (h : 15 < n) (src : NetSource) :
    State.queryOf items n src s = ⟨s, answerRange⟩ := by
  unfold State.queryOf
  rw [channelOf_eq_none h]

/-- The six bytes of QUERY_CHANNEL, each field a number of its own (R187). -/
def channelBytes (out mode granted applied command item source cls status : Nat) : List Nat :=
  let first := applied % 1024 + command * 1024
  let second := item % 1024 + source * 1024 + cls * 8192
  [out + mode * 4 + granted * 16, first % 256, first / 256 % 256, second % 256, second / 256 % 256, status % 64]

theorem State.channelItems_eq (s : State) (c : Channel) :
    s.channelItems c = channelBytes (s.chan c).sw.out.code (s.chan c).sw.out.modeCode (s.chan c).arb.granted.code
      (s.chan c).sw.out.applied (winnerCommand (s.chan c).arb.winner) (s.chan c).arb.granted.item
      (winnerSource (s.chan c).arb.winner) (winnerClass (s.chan c).arb.winner) (s.chan c).arb.status.code := by
  unfold State.channelItems
  dsimp only
  rw [field_of_lt (width := 2) (OutState.code_lt _), field_of_lt (width := 2) (OutState.modeCode_lt _),
    field_of_lt (width := 2) (Granted.code_lt _), field_of_lt (width := 3) (winnerCommand_lt _),
    field_of_lt (width := 3) (winnerSource_lt _), field_of_lt (width := 3) (winnerClass_lt _)]
  simp [field, bytes2, channelBytes]

/-- The fields read back from the six bytes. -/
theorem channelBytes_fields {out mode granted command source cls : Nat} (ho : out < 4) (hm : mode < 4) (hg : granted < 4)
    (hc : command < 8) (hs : source < 8) (hk : cls < 8) (applied item status : Nat) :
    let d := channelBytes out mode granted applied command item source cls status
    d.length = 6 ∧ (∀ n ∈ d, n < 256) ∧ d[0]! % 4 = out ∧ d[0]! / 4 % 4 = mode ∧ d[0]! / 16 % 4 = granted
      ∧ (d[1]! + 256 * d[2]!) / 1024 % 8 = command ∧ (d[3]! + 256 * d[4]!) / 1024 % 8 = source
      ∧ (d[3]! + 256 * d[4]!) / 8192 = cls
      ∧ (applied ≤ 1000 → (d[1]! + 256 * d[2]!) % 1024 = applied)
      ∧ (item ≤ 1000 → (d[3]! + 256 * d[4]!) % 1024 = item)
      ∧ d[5]! = status % 64 := by
  have first := bytes2_value (n := applied % 1024 + command * 1024) (by omega)
  have second := bytes2_value (n := item % 1024 + source * 1024 + cls * 8192) (by omega)
  simp only [channelBytes, List.length_cons, List.length_nil, List.mem_cons, List.not_mem_nil, forall_eq_or_imp,
    List.getElem!_cons_zero, List.getElem!_cons_succ, first, second]
  refine ⟨trivial, ⟨?_, ?_, ?_, ?_, ?_, ?_, nofun⟩, ?_, ?_, ?_, ?_, ?_, ?_, fun h => ?_, fun h => ?_, trivial⟩
  all_goals omega

/-- The items of QUERY_PROTECTION, each a number of its own (R187). -/
theorem State.protectionItems_eq (s : State) (c : Channel) :
    s.protectionItems c =
      [(s.chan c).prot.state.code + 4 * (s.chan c).prot.state.kindCode + 16 * ((s.chan c).prot.retries % 8),
        min 255 (100 * (s.chan c).prot.heat / ((s.profile c).trip * 2 ^ (s.profile c).decayShift)),
        (s.chan c).prot.state.delayRemaining s.now,
        flagBit (s.chan c).prot.openLoadOn + 2 * flagBit (s.chan c).prot.openLoadOff
          + 4 * flagBit (s.chan c).prot.shortToSupply + 8 * flagBit (s.chan c).sense.valid
          + 16 * flagBit (s.chan c).sense.saturated,
        (s.chan c).sense.current % 256, (s.chan c).sense.current / 256 % 256] := by
  unfold State.protectionItems
  dsimp only
  rw [field_of_lt (width := 2) (ProtState.code_lt _), field_of_lt (width := 2) (ProtState.kindCode_lt _)]
  simp only [field_of_lt (flagBit_lt _)]
  simp [field, bytes2, Nat.mul_comm, State.heatPercent, Profile.tripLevel]

/-- Settles O53: the items of both queries, and RANGE for what names no channel. -/
theorem channelQueriesAnswered : Obligations.ChannelQueriesAnswered := by
  intro s rx args src taken
  have channels := exec_queryChannel_taken taken args
  have protections := exec_queryProtection_taken taken args
  refine ⟨fun out => ?_, fun c named => ?_⟩
  · rw [State.queryOf_out _ s out] at channels protections
    exact ⟨channels.trans (congrArg Host.Outcome.next (Taken.finish_some _ .range _ (by decide) src)),
      protections.trans (congrArg Host.Outcome.next (Taken.finish_some _ .range _ (by decide) src))⟩
  · rw [named, State.queryOf_channel] at channels protections
    refine ⟨⟨s.channelItems c, channels.trans (congrArg Host.Outcome.next (Taken.finish_some _ .ok _ (by decide) src)), ?_⟩,
      protections.trans (congrArg Host.Outcome.next ((Taken.finish_some _ .ok _ (by decide) src).trans ?_))⟩
    · rw [State.channelItems_eq]
      exact channelBytes_fields (OutState.code_lt _) (OutState.modeCode_lt _) (Granted.code_lt _) (winnerCommand_lt _)
        (winnerSource_lt _) (winnerClass_lt _) ..
    · exact congrArg _ (s.protectionItems_eq c)

/-! ### QUERY_ENTRY (R43) -/

theorem exec_queryEntry_taken {s : State} {rx : RxHeader} {src : NetSource} (h : s.Takes rx src) (args : Vector Byte 7) :
    exec (.queryEntry rx args) s = .next ((State.queryEntry args[0].toNat args[1].toNat src s).finish 9 src) :=
  congrArg Host.Outcome.next (State.takeCommand_taken h 9 _)

theorem entryItems_eq (t : Moment) (src : Source) (e : Entry) :
    entryItems t src e = [Source.code src + 8 * Class.code e.cls, e.command.code + 8 * flagBit e.command.isSpent,
      e.command.argument, e.remaining t] := by
  unfold entryItems
  rw [field_of_lt (width := 3) (Source.code_lt _), field_of_lt (width := 3) (Class.code_lt _),
    field_of_lt (width := 3) (EntryCommand.code_lt _), field_of_lt (flagBit_lt _)]
  simp [Nat.mul_comm]

theorem State.queryEntry_out (s : State) {n : Nat} (h : 15 < n) (index : Nat) (src : NetSource) :
    State.queryEntry n index src s = ⟨s, answerRange⟩ := by
  unfold State.queryEntry
  rw [channelOf_eq_none h]

theorem State.queryEntry_none {s : State} {c : Channel} {index : Nat} (h : (s.chan c).demand.list.entries.length ≤ index)
    (src : NetSource) :
    State.queryEntry c.val index src s = ⟨s, some ⟨.range, [(s.chan c).demand.list.entries.length]⟩⟩ := by
  unfold State.queryEntry
  rw [channelOf_val]
  dsimp only
  rw [List.getElem?_eq_none h]

theorem State.queryEntry_some {s : State} {c : Channel} {index : Nat} {x : Source} {e : Entry}
    (h : (s.chan c).demand.list.entries[index]? = some (x, e)) (src : NetSource) :
    State.queryEntry c.val index src s =
      ⟨s, answerOk ((s.chan c).demand.list.entries.length :: entryItems s.now x e)⟩ := by
  unfold State.queryEntry
  rw [channelOf_val]
  dsimp only
  rw [h]

/-! ### QUERY_ZONE (R156) -/

theorem exec_queryZone_taken {s : State} {rx : RxHeader} {src : NetSource} (h : s.Takes rx src) (args : Vector Byte 7) :
    exec (.queryZone rx args) s = .next ((State.queryZone args[0].toNat src s).finish 10 src) :=
  congrArg Host.Outcome.next (State.takeCommand_taken h 10 _)

theorem State.queryZone_out (s : State) {part : Nat} (h : 1 < part) (src : NetSource) :
    State.queryZone part src s = ⟨s, answerRange⟩ := by
  match part, h with
  | _ + 2, _ => rfl

/-- A floor component is a floor of some source, or 0 (R154). -/
theorem Supervisor.Ok.floorComponent_le {v : Supervisor} (h : v.Ok) : v.floorComponent ≤ 3 := by
  obtain ⟨-, -, -, floors, -⟩ := h
  have level (src : NetSource) : (match v.floors.get src with | some x => x.level | none => 0) ≤ 3 := by
    split
    · next f e => exact (floors src f e).2
    · exact Nat.zero_le 3
  unfold Supervisor.floorComponent
  exact max_le (max_le (level .cab) (level .body)) (max_le (level .drive) (level .service))

theorem State.zoneItems_eq {s : State} (h : s.sup.Ok) :
    s.zoneItems =
      [s.scan.supply % 256, s.scan.supply / 256 % 256, s.scan.feeder % 256, s.scan.feeder / 256 % 256,
        s.sup.level + 4 * s.sup.thermalLevel + 16 * s.sup.voltageLevel + 64 * s.sup.floorComponent,
        flagBit s.latch + 2 * flagBit s.sup.hold + 4 * s.resetCause.code] := by
  have floor := h.floorComponent_le
  obtain ⟨effective, voltage, thermal, -, -⟩ := h
  have level : s.sup.level ≤ 3 := effective.trans_le (max_le (max_le thermal voltage) floor)
  unfold State.zoneItems
  rw [field_of_lt (width := 2) (Nat.lt_succ_of_le level), field_of_lt (width := 2) (Nat.lt_succ_of_le thermal),
    field_of_lt (width := 2) (Nat.lt_succ_of_le voltage), field_of_lt (width := 2) (Nat.lt_succ_of_le floor),
    field_of_lt (flagBit_lt _), field_of_lt (flagBit_lt _), field_of_lt (width := 2) (ResetCause.code_lt _)]
  simp [bytes2, Nat.mul_comm]

/-! ### READ_FAULT (R178) -/

theorem exec_readFault_taken {s : State} {rx : RxHeader} {src : NetSource} (h : s.Takes rx src) (args : Vector Byte 7) :
    exec (.readFault rx args) s = .next ((State.readFault args[0].toNat args[1].toNat src s).finish 11 src) :=
  congrArg Host.Outcome.next (State.takeCommand_taken h 11 _)

theorem State.readFault_out (s : State) (index : Nat) {part : Nat} (h : 1 < part) (src : NetSource) :
    State.readFault index part src s = ⟨s, answerRange⟩ :=
  if_pos h

theorem State.readFault_none {s : State} {index part : Nat} (h : s.faults.records.length ≤ index) (hp : part ≤ 1)
    (src : NetSource) :
    State.readFault index part src s = ⟨s, some ⟨.range, [0, 0, 0, 0, 0, s.faults.records.length]⟩⟩ := by
  unfold State.readFault
  rw [if_neg (Nat.not_lt.2 hp), List.getElem?_eq_none h]

theorem State.readFault_some {s : State} {index part : Nat} {r : FaultRecord} (h : s.faults.records[index]? = some r)
    (hp : part ≤ 1) (src : NetSource) :
    State.readFault index part src s = ⟨s, answerOk (r.items s.faults.records.length part)⟩ := by
  unfold State.readFault
  rw [if_neg (Nat.not_lt.2 hp), h]

/-! ### READ_LIMIT_LOG (R64) -/

theorem exec_readLimitLog_taken {s : State} {rx : RxHeader} {src : NetSource} (h : s.Takes rx src) (args : Vector Byte 7) :
    exec (.readLimitLog rx args) s = .next ((State.readLimitLog args[0].toNat args[1].toNat src s).finish 12 src) :=
  congrArg Host.Outcome.next (State.takeCommand_taken h 12 _)

theorem CauseSet.empty_union (u : CauseSet) : CauseSet.empty.union u = u := by
  simp [CauseSet.empty, CauseSet.union]

theorem CauseSet.has_union (t u : CauseSet) (k : LimitCause) : (t.union u).has k = (t.has k || u.has k) := by
  cases k <;> rfl

theorem CauseSet.has_empty (k : LimitCause) : CauseSet.empty.has k = false := by cases k <;> rfl

/-- A cause is in the union of some logs exactly if it is in one of them (R64). -/
theorem State.has_readLogs (s : State) (l : List Channel) (k : LimitCause) :
    (s.readLogs l).has k = true ↔ ∃ c ∈ l, (s.chan c).arb.log.has k = true := by
  have folded : ∀ (l : List Channel) (t : CauseSet), (l.foldl (fun t c => t.union (s.chan c).arb.log) t).has k = true ↔
      t.has k = true ∨ ∃ c ∈ l, (s.chan c).arb.log.has k = true := by
    intro l
    induction l with
    | nil => simp
    | cons c l ih =>
      intro t
      rw [List.foldl_cons, ih, CauseSet.has_union, Bool.or_eq_true, or_assoc]
      simp
  unfold State.readLogs
  rw [folded, CauseSet.has_empty]
  simp

theorem byChannel_clearLog (s : State) :
    ByChannel (fun t c => t.withArb c fun a => { a with log := CauseSet.empty }) id (fun t => t = { s with chans := t.chans })
      fun _ x => { x with arb := { x.arb with log := CauseSet.empty } } :=
  byChannel_setChan s fun _ _ _ => rfl

theorem logChannels_channel (c : Channel) : logChannels c.val = [c] := by
  unfold logChannels
  rw [channelOf_val]

theorem logChannels_none {n : Nat} (low : 16 ≤ n) (high : n ≤ 254) : logChannels n = [] := by
  unfold logChannels
  rw [channelOf_eq_none low]
  exact if_neg (by omega)

theorem State.readLimitLog_out {s : State} {selector flag : Nat} (h : 16 ≤ selector ∧ selector ≤ 254 ∨ 1 < flag)
    (src : NetSource) : State.readLimitLog selector flag src s = ⟨s, answerRange⟩ :=
  if_pos (h.imp (fun k => logChannels_none k.1 k.2) id)

theorem State.readLimitLog_in {s : State} {selector flag : Nat} (h : logChannels selector ≠ []) (hf : flag ≤ 1)
    (src : NetSource) :
    State.readLimitLog selector flag src s =
      ⟨if flag = 1 then s.clearLogs (logChannels selector) else s,
        answerOk [selector, (s.readLogs (logChannels selector)).code]⟩ :=
  if_neg fun k => k.elim h (Nat.not_lt.2 hf)

theorem State.readLogs_channel (s : State) (c : Channel) : s.readLogs [c] = (s.chan c).arb.log :=
  CauseSet.empty_union _

theorem State.has_readAllLogs (s : State) (k : LimitCause) :
    (s.readLogs allChannels).has k = true ↔ ∃ c : Channel, (s.chan c).arb.log.has k = true := by
  rw [State.has_readLogs]
  exact exists_congr fun c => and_iff_right (mem_allChannels c)

/-- The sixteen logs emptied. -/
theorem State.clearLogs_chan (s : State) (c : Channel) :
    (s.clearLogs allChannels).chan c = { s.chan c with arb := { (s.chan c).arb with log := CauseSet.empty } } :=
  ((byChannel_clearLog s).foldl_chan nodup_allChannels (s := s) rfl c).trans (if_pos (mem_allChannels c))

theorem State.clearLogs_frame (s : State) :
    s.clearLogs allChannels = { s with chans := (s.clearLogs allChannels).chans } :=
  (byChannel_clearLog s).foldl_keeps allChannels s rfl

/-- The union of the sixteen logs read, and what the flag leaves of them (R64). -/
theorem State.readLimitLog_all (s : State) {flag : Nat} (hf : flag ≤ 1) (src : NetSource) :
    ∃ t : State, State.readLimitLog 255 flag src s = ⟨t, answerOk [255, (s.readLogs allChannels).code]⟩
      ∧ t = { s with chans := t.chans }
      ∧ ∀ c, t.chan c = if flag = 0 then s.chan c
        else { s.chan c with arb := { (s.chan c).arb with log := CauseSet.empty } } := by
  have read := State.readLimitLog_in (s := s) (selector := 255) (by decide) hf src
  rw [show logChannels 255 = allChannels from rfl] at read
  by_cases keep : flag = 0
  · rw [if_neg (by omega)] at read
    exact ⟨s, read, rfl, fun c => (if_pos keep).symm⟩
  · rw [if_pos (by omega)] at read
    exact ⟨s.clearLogs allChannels, read, s.clearLogs_frame, fun c => (s.clearLogs_chan c).trans (if_neg keep).symm⟩

/-- Settles O54: the four reads, each from the state as it stands. -/
theorem readsAnswered : Obligations.ReadsAnswered := by
  intro s rx args src taken a b
  have entry := exec_queryEntry_taken taken args
  have zone := exec_queryZone_taken taken args
  have fault := exec_readFault_taken taken args
  have log := exec_readLimitLog_taken taken args
  have answers {i : Instr} {code : Nat} {t : Taken} (eq : exec i s = .next (t.finish code src)) {u : State} {r : ReplyResult}
      {data : List Nat} {n : Nat} (made : t = ⟨u, some ⟨r, data⟩⟩) (h : code < 32) (result : r.code = n) :
      exec i s = .next (u.replied code src n data) := by
    rw [eq, made, Taken.finish_some _ _ _ h, result]
  refine ⟨fun out => answers entry (State.queryEntry_out s out _ src) (by decide) rfl, fun c named => ?_,
    fun out => answers zone (State.queryZone_out s out src) (by decide) rfl, fun part => ?_, fun part ok => ?_,
    fun out => answers fault (State.readFault_out s _ out src) (by decide) rfl,
    fun part out => answers fault (State.readFault_none out part src) (by decide) rfl, fun r record => ?_,
    fun out => answers log (State.readLimitLog_out out src) (by decide) rfl, fun c named => ?_, fun all flag => ?_⟩
  · change args[0].toNat = c.val at named
    rw [named] at entry
    refine ⟨fun out => answers entry (State.queryEntry_none out src) (by decide) rfl, fun x e item => ?_⟩
    rw [← entryItems_eq s.now]
    exact answers entry (State.queryEntry_some item src) (by decide) rfl
  · change args[0].toNat = 1 at part
    rw [part] at zone
    exact answers zone rfl (by decide) rfl
  · change args[0].toNat = 0 at part
    rw [part] at zone
    rw [← State.zoneItems_eq ok]
    exact answers zone rfl (by decide) rfl
  · refine ⟨fun part => ?_, fun part => ?_⟩
    · exact answers fault ((State.readFault_some record (part.trans_le (by decide)) src).trans
        (by rw [FaultRecord.items, if_pos part]; rfl)) (by decide) rfl
    · exact answers fault ((State.readFault_some record (Nat.le_of_eq part) src).trans
        (by rw [FaultRecord.items, if_neg (by rw [part]; decide)]; rfl)) (by decide) rfl
  · have channels := logChannels_channel c
    rw [named]
    change args[0].toNat = c.val at named
    rw [named] at log
    have read (flag : b ≤ 1) := State.readLimitLog_in (s := s) (selector := c.val) (by rw [channels]; nofun) flag src
    rw [channels, State.readLogs_channel] at read
    refine ⟨fun flag => ?_, fun flag => ?_⟩
    · have made := read (by omega)
      rw [if_neg (by omega)] at made
      exact answers log made (by decide) rfl
    · have made := read (by omega)
      rw [if_pos flag] at made
      exact answers log made (by decide) rfl
  · obtain ⟨t, made, frame, chan⟩ := State.readLimitLog_all s flag src
    change args[0].toNat = 255 at all
    rw [all] at log
    exact ⟨t, s.readLogs allChannels, answers log made (by decide) rfl, s.has_readAllLogs, frame, chan⟩

end Sys2Proof.Machine
end

section
/-! SUPPORT. The configuration store: the checks of a write in their order, what an accepted write writes and what it does
beside the value, and the store (R4 to R16, R146, R200). -/

namespace Sys2Proof.Machine

/-! ### The effects of a write (R4 to R10, R146) -/

/-- The protection record of a channel after a write of a profile field, under the new value (R4). -/
def ProtRecord.afterWrite (r : ProtRecord) (f : ProfileField) (v : Nat) (now : Moment) : ProtRecord :=
  if f = .retryLimit then { r with retries := min r.retries v }
  else if f = .openLoad ∨ f = .pullUp then { r with onCount := 0, offCount := 0, offWait := .since now }
  else r

theorem State.profileEffect_eq (s : State) (c : Channel) (f : ProfileField) {v : Nat} (held : (s.profile c).get f = v) :
    s.profileEffect c f = s.setChan c { s.chan c with prot := (s.chan c).prot.afterWrite f v s.now } := by
  unfold ProtRecord.afterWrite
  by_cases limit : f = .retryLimit
  · subst limit
    rw [if_pos rfl, ← held]
    rfl
  rw [if_neg limit]
  by_cases load : f = .openLoad ∨ f = .pullUp
  · rw [if_pos load]
    rcases load with rfl | rfl <;> rfl
  · rw [if_neg load]
    obtain ⟨noLoad, noPull⟩ := not_or.1 load
    refine Eq.trans ?_ (s.setChan_chan c).symm
    unfold State.profileEffect
    split <;> first | rfl | contradiction

theorem State.retestRuns_none {s : State} (h : s.sup.latest = none) : s.retestRuns = s := by
  unfold State.retestRuns Supervisor.retest
  rw [h]

theorem State.retestRuns_some {s : State} {volts : Nat} (h : s.sup.latest = some volts) :
    s.retestRuns = { s with sup := { s.sup with
      low := s.sup.low.low s.cfg.zone s.now volts
      recovery := s.sup.recovery.recovery s.cfg.zone s.now volts } } := by
  simp only [State.retestRuns, Supervisor.retest, h]

theorem State.testGrace_passed {s : State} {start : Moment} (h : s.graceStart = some start)
    (passed : start + 1000 * s.cfg.zone.startGrace ≤ s.now) : s.testGrace = s.endGrace := by
  unfold State.testGrace
  rw [h]
  exact if_pos passed

theorem State.testGrace_waits {s : State}
    (waits : ∀ start, s.graceStart = some start → s.now < start + 1000 * s.cfg.zone.startGrace) : s.testGrace = s := by
  unfold State.testGrace
  cases h : s.graceStart with
  | none => rfl
  | some start => exact if_neg (Nat.not_le.2 (waits start h))

theorem State.testDebounce_reached {s : State} {i : Fin 4} {start : Moment} (h : s.lines.conf[i].debounce = some start)
    (reached : start + 10 * s.cfg.line[i].debounce ≤ s.now) : s.testDebounce i = s.settle (.conf i) false := by
  unfold State.testDebounce
  rw [show (s.line (.conf i)).debounce = some start from h]
  exact if_pos reached

theorem State.testDebounce_waits {s : State} {i : Fin 4}
    (waits : ∀ start, s.lines.conf[i].debounce = some start → s.now < start + 10 * s.cfg.line[i].debounce) :
    s.testDebounce i = s := by
  unfold State.testDebounce
  cases h : (s.line (.conf i)).debounce with
  | none => rfl
  | some start => exact if_neg (Nat.not_le.2 (waits start h))

/-- The raw state of a line L0 to L3, by its level and the polarity (R158). -/
theorem State.raw_conf (s : State) (i : Fin 4) :
    s.raw (.conf i) = decide (s.lines.conf[i].high = decide (s.cfg.line[i].polarity = 0)) :=
  beq_eq_decide ..

/-- A settled line L0 to L3: its record written, and the LINE entries of its mask recomputed (R160, R162). -/
theorem State.settle_conf (s : State) (i : Fin 4) (floorFirst : Bool) :
    s.settle (.conf i) floorFirst =
      (s.setLine (.conf i) ⟨s.lines.conf[i].high, s.raw (.conf i), none⟩).recomputeLines
        fun c => s.cfg.line[i].mask.testBit c.val := rfl

/-- A field written holds the value, and another field what it held (R12). -/
theorem WorkingConfig.read_write_self (g : WorkingConfig) (n : ConfigField) (v : Nat) : (g.write n v).read n = v :=
  (WorkingConfig.read_write g n n v).trans (if_pos rfl)

theorem WorkingConfig.read_write_ne (g : WorkingConfig) {n m : ConfigField} (h : m ≠ n) (v : Nat) :
    (g.write n v).read m = g.read m :=
  (WorkingConfig.read_write g n m v).trans (if_neg h)

/-- Settles O56: the write of the value held, and each effect of a changed field. -/
theorem configWriteTakesEffect : Obligations.ConfigWriteTakesEffect := by
  intro s n v w t
  refine ⟨fun same => ?_, fun changed => ?_⟩
  · have eq : t = s.rewriteEffect n := if_pos same
    refine ⟨fun c f named => ?_, fun other => ?_⟩
    · rw [named] at eq
      exact ⟨eq, eq ▸ (evaluates s c).settled⟩
    · cases n with
      | profile c f => exact absurd rfl (other c f)
      | _ => exact eq
  have eq : t = w.writeEffect n s.cfg := if_neg changed
  have held : w.cfg.read n = v := WorkingConfig.read_write_self ..
  have others (m : ConfigField) (h : m ≠ n) : w.cfg.read m = s.cfg.read m := WorkingConfig.read_write_ne _ h v
  refine ⟨fun c f named => ?_, fun f named => ?_, fun src named => ?_, fun p f named => ?_, fun i f named => ?_⟩
  · intro r
    subst named
    have made : t = (w.setChan c { s.chan c with prot := r.afterWrite f v s.now }).evaluate c :=
      eq.trans (congrArg (·.evaluate c) (w.profileEffect_eq c f held))
    have ev := evaluates (w.setChan c { s.chan c with prot := r.afterWrite f v s.now }) c
    rw [← made] at ev
    exact ⟨made, ev.settled, fun d hd => (ev.others d hd).of_eq (State.chan_setChan_ne _ _ hd) rfl⟩
  · subst named
    refine ⟨fun level => ?_, fun named => ?_, fun named => ?_, fun named => ?_⟩
    · have retested : t = w.retestRuns := by
        rcases level with rfl | rfl | rfl <;> exact eq
      refine ⟨fun none => retested.trans (State.retestRuns_none none), fun volts latest => ?_⟩
      rw [retested, State.retestRuns_some (s := w) latest]
      unfold Runs.low Runs.recovery
      simp only [extendRun_decide]
      rfl
    · subst named
      exact eq ▸ State.admitQueued_tested w
    · subst named
      have grace : w.cfg.zone.startGrace = v := held
      refine ⟨fun start runs passed => ?_, fun waits => ?_⟩
      · rw [show t = w.endGrace from eq.trans (State.testGrace_passed (s := w) runs (grace ▸ passed))]
        exact State.graceEnded_endGrace w
      · exact eq.trans (State.testGrace_waits (s := w) fun start runs => grace ▸ waits start runs)
    · rcases named with rfl | rfl | rfl | rfl <;> exact eq
  · subst named
    exact eq
  · subst named
    exact eq
  · subst named
    intro r raw bound changed
    have raws : w.raw (.conf i) = raw := State.raw_conf w i
    have settled (kept : s.cfg.line[i].mask = w.cfg.line[i].mask) :
        changed.LinesRecomputed (w.settle (.conf i) false) bound := by
      have bounds : bound = fun c : Channel => w.cfg.line[i].mask.testBit c.val := by
        funext c
        change (s.cfg.line[i].mask.testBit c.val || w.cfg.line[i].mask.testBit c.val) = _
        rw [kept, Bool.or_self]
      rw [State.settle_conf, raws, bounds]
      exact State.linesRecomputed _ _
    refine ⟨fun named => ?_, fun named => ?_, fun named => ?_⟩
    · subst named
      have length : w.cfg.line[i].debounce = s.cfg.line[i].debounce := others (.line i .debounce) nofun
      have mask : s.cfg.line[i].mask = w.cfg.line[i].mask := (others (.line i .mask) nofun).symm
      replace eq : t = w.reconsider (.conf i) := eq
      unfold State.reconsider at eq
      rw [raws] at eq
      refine ⟨fun agrees => eq.trans (if_pos agrees), fun differs long => ?_, fun differs short => ?_⟩
      · refine eq.trans ((if_neg differs).trans (if_neg fun zero => long ?_))
        exact length ▸ (Nat.mul_eq_zero.1 zero).resolve_left (by decide)
      · have zero : w.debounceLength (.conf i) = 0 := congrArg (10 * ·) (length.trans short)
        rw [show t = w.settle (.conf i) false from eq.trans ((if_neg differs).trans (if_pos zero))]
        exact settled mask
    · subst named
      have length : w.cfg.line[i].debounce = v := held
      have mask : s.cfg.line[i].mask = w.cfg.line[i].mask := (others (.line i .mask) nofun).symm
      refine ⟨fun start runs reached => ?_, fun waits => ?_⟩
      · rw [show t = w.settle (.conf i) false from
          eq.trans (State.testDebounce_reached (s := w) runs (length ▸ reached))]
        exact settled mask
      · exact eq.trans (State.testDebounce_waits (s := w) fun start runs => length ▸ waits start runs)
    · have recomputed : t = w.recomputeLines bound := by
        rcases named with rfl | rfl <;> exact eq
      rw [recomputed]
      exact State.linesRecomputed w bound

/-! ### What a write leaves (R12) -/

/-- What the effects of a write leave: the configuration, every heat, and all but channels, queue, generators, supervisor,
lines and the start-grace wait. -/
structure WriteKeeps (s t : State) : Prop where
  frame : t = { s with
    chans := t.chans, queue := t.queue, gens := t.gens, sup := t.sup, lines := t.lines, graceStart := t.graceStart }
  heat : ∀ c, (t.chan c).prot.heat = (s.chan c).prot.heat

theorem WriteKeeps.refl (s : State) : WriteKeeps s s := ⟨rfl, fun _ => rfl⟩

theorem WriteKeeps.trans {s t u : State} (h : WriteKeeps s t) (k : WriteKeeps t u) : WriteKeeps s u :=
  ⟨by rw [k.frame, h.frame], fun c => (k.heat c).trans (h.heat c)⟩

theorem WriteKeeps.ite {s a b : State} {P : Prop} [Decidable P] (ha : WriteKeeps s a) (hb : WriteKeeps s b) :
    WriteKeeps s (if P then a else b) := by
  split
  · exact ha
  · exact hb

theorem ChannelState.Kept.heat {x y : ChannelState} (h : x.Kept y) : y.prot.heat = x.prot.heat := by
  obtain ⟨-, -, -, -, prot⟩ := h
  rw [prot]

theorem State.SameButChannels.writeKeeps {s t : State} (frame : s.SameButChannels t)
    (heat : ∀ c, (t.chan c).prot.heat = (s.chan c).prot.heat) : WriteKeeps s t := by
  unfold State.SameButChannels at frame
  exact ⟨by rw [frame], heat⟩

theorem writeKeeps_evaluate (s : State) (c : Channel) : WriteKeeps s (s.evaluate c) :=
  (evaluates s c).frame.writeKeeps fun d => ((evaluates s c).kept d).heat

theorem writeKeeps_recomputeLines (s : State) (concerned : Channel → Bool) : WriteKeeps s (s.recomputeLines concerned) := by
  obtain ⟨frame, lists⟩ := s.linesRecomputed concerned
  refine frame.writeKeeps fun c => ?_
  obtain ⟨-, -, -, -, kept⟩ := lists c
  exact kept.heat

theorem writeKeeps_endGrace (s : State) : WriteKeeps s s.endGrace := by
  obtain ⟨frame, lists⟩ := s.graceEnded_endGrace
  refine ⟨by rw [frame], fun c => ?_⟩
  obtain ⟨-, -, kept⟩ := lists c
  exact kept.heat

theorem writeKeeps_settle (s : State) (i : Fin 4) : WriteKeeps s (s.settle (.conf i) false) :=
  WriteKeeps.trans (t := s.setLine (.conf i) ⟨s.lines.conf[i].high, s.raw (.conf i), none⟩) ⟨rfl, fun _ => rfl⟩
    (writeKeeps_recomputeLines _ _)

theorem writeKeeps_profileEffect (s : State) (c : Channel) (f : ProfileField) : WriteKeeps s (s.profileEffect c f) := by
  rw [s.profileEffect_eq c f rfl]
  refine ⟨rfl, fun d => ?_⟩
  by_cases own : d = c
  · subst own
    rw [State.chan_setChan_self]
    unfold ProtRecord.afterWrite
    split
    · rfl
    · split <;> rfl
  · rw [State.chan_setChan_ne _ _ own]

theorem writeKeeps_zoneEffect (s : State) (f : ZoneField) : WriteKeeps s (s.zoneEffect f) := by
  cases f with
  | lv1 => exact ⟨rfl, fun _ => rfl⟩
  | lv2 => exact ⟨rfl, fun _ => rfl⟩
  | lv3 => exact ⟨rfl, fun _ => rfl⟩
  | admissionInterval =>
    exact (touches_admit s 0).frame.writeKeeps fun c => ((touches_admit s 0).kept c).heat
  | startGrace =>
    change WriteKeeps s s.testGrace
    unfold State.testGrace
    split
    · exact .refl s
    · exact .ite (writeKeeps_endGrace s) (.refl s)
  | _ => exact .refl s

theorem writeKeeps_lineEffect (s : State) (i : Fin 4) (f : LineField) (old : LineSettings) :
    WriteKeeps s (s.lineEffect i f old) := by
  cases f with
  | polarity => exact .ite ⟨rfl, fun _ => rfl⟩ (.ite (writeKeeps_settle s i) ⟨rfl, fun _ => rfl⟩)
  | debounce =>
    change WriteKeeps s (s.testDebounce i)
    unfold State.testDebounce
    split
    · exact .refl s
    · exact .ite (writeKeeps_settle s i) (.refl s)
  | mask => exact writeKeeps_recomputeLines s _
  | command => exact writeKeeps_recomputeLines s _

theorem writeKeeps_writeEffect (s : State) (n : ConfigField) (old : WorkingConfig) : WriteKeeps s (s.writeEffect n old) := by
  cases n with
  | profile c f => exact (writeKeeps_profileEffect s c f).trans (writeKeeps_evaluate _ c)
  | zone f => exact writeKeeps_zoneEffect s f
  | line i f => exact writeKeeps_lineEffect s i f _
  | _ => exact .refl s

theorem Profile.set_get (p : Profile) (f : ProfileField) : p.set f (p.get f) = p := by cases f <;> rfl

/-- A write of the value held writes the configuration as it is (R12). -/
theorem WorkingConfig.write_read (g : WorkingConfig) (n : ConfigField) : g.write n (g.read n) = g := by
  cases n with
  | profile c f =>
    unfold WorkingConfig.write WorkingConfig.read
    dsimp only
    rw [Profile.set_get, Fin.getElem_fin, Vector.set_getElem_self]
  | zone f => cases f <;> rfl
  | lapse src => cases src <;> rfl
  | pattern p f =>
    have same : g.pattern[p].set f (g.pattern[p].get f) = g.pattern[p] := by cases f <;> rfl
    unfold WorkingConfig.write WorkingConfig.read
    dsimp only
    rw [same, Fin.getElem_fin, Vector.set_getElem_self]
  | line i f =>
    have same : g.line[i].set f (g.line[i].get f) = g.line[i] := by cases f <;> rfl
    unfold WorkingConfig.write WorkingConfig.read
    dsimp only
    rw [same, Fin.getElem_fin, Vector.set_getElem_self]

/-- An accepted write: the field written, and what its effects leave of the state that holds it (R12). -/
theorem State.applyWrite_keeps (s : State) (n : ConfigField) (v : Nat) :
    WriteKeeps { s with cfg := s.cfg.write n v } (s.applyWrite n v) := by
  unfold State.applyWrite
  split
  · next same =>
    rw [← same, WorkingConfig.write_read]
    cases n with
    | profile c f => exact writeKeeps_evaluate s c
    | _ => exact .refl s
  · exact writeKeeps_writeEffect _ n _

theorem State.applyWrite_settled (s : State) (c : Channel) (f : ProfileField) (v : Nat) :
    (s.applyWrite (.profile c f) v).Settled c := by
  unfold State.applyWrite
  split
  · exact (evaluates s c).settled
  · exact (evaluates _ c).settled

/-! ### The checks of a write, in their order (R12) -/

section
variable {s : State} {src : NetSource} {n : Option ConfigField} {v : Nat}

theorem State.checkWrite_notPermitted (h : ¬(src = .service ∧ s.lines.svc.active = true)) :
    s.checkWrite src n v = .notPermitted := if_pos h

theorem State.busy_iff (s : State) : (s.store ≠ .idle ∨ s.heldStore.isSome = true) ↔ ¬(s.store = .idle ∧ s.heldStore = none) := by
  rw [Option.isSome_iff_ne_none, not_and_or]

theorem State.checkWrite_busy (permitted : src = .service ∧ s.lines.svc.active = true)
    (h : ¬(s.store = .idle ∧ s.heldStore = none)) : s.checkWrite src n v = .busy :=
  (if_neg (not_not.2 permitted)).trans (if_pos (s.busy_iff.2 h))

theorem State.checkWrite_none (permitted : src = .service ∧ s.lines.svc.active = true)
    (idle : s.store = .idle ∧ s.heldStore = none) : s.checkWrite src none v = .range :=
  (if_neg (not_not.2 permitted)).trans (if_neg fun k => s.busy_iff.1 k idle)

theorem State.checkWrite_some (permitted : src = .service ∧ s.lines.svc.active = true)
    (idle : s.store = .idle ∧ s.heldStore = none) (m : ConfigField) :
    s.checkWrite src (some m) v =
      if !m.inRange v then .range
      else if !(s.cfg.write m v).relatedAt m then .range
      else if !s.mayWrite m then .condition
      else .ok :=
  (if_neg (not_not.2 permitted)).trans (if_neg fun k => s.busy_iff.1 k idle)

end

/-- A profile field may be written while its channel is OFF, and READY or WARM (R13). -/
theorem State.mayWrite_iff (s : State) (n : ConfigField) : s.mayWrite n = true ↔ ∀ c f, n = .profile c f →
    (s.chan c).sw.out = .off ∧ ((s.chan c).prot.state = .ready ∨ (s.chan c).prot.state = .warm) := by
  cases n with
  | profile c f =>
    have own : s.mayWrite (.profile c f) = true ↔
        (s.chan c).sw.out = .off ∧ ((s.chan c).prot.state = .ready ∨ (s.chan c).prot.state = .warm) := by
      rw [← ProtState.free_iff]
      exact (Bool.and_eq_true_iff).trans (and_congr_left' decide_eq_true_iff)
    refine own.trans ⟨fun h d g named => ?_, fun h => h c f rfl⟩
    cases named
    exact h
  | _ => exact iff_of_true rfl nofun

/-! ### CONFIG_READ and CONFIG_WRITE (R11, R12, R199) -/

theorem exec_configRead_taken {s : State} {rx : RxHeader} {src : NetSource} (h : s.Takes rx src) (args : Vector Byte 7) :
    exec (.configRead rx args) s =
      .next ((State.configRead args[0].toNat args[1].toNat args[2].toNat src s).finish 13 src) :=
  congrArg Host.Outcome.next (State.takeCommand_taken h 13 _)

theorem exec_configWrite_taken {s : State} {rx : RxHeader} {src : NetSource} (h : s.Takes rx src) (args : Vector Byte 7) :
    exec (.configWrite rx args) s =
      .next ((State.configWrite args[0].toNat args[1].toNat args[2].toNat (args[3].toNat + 256 * args[4].toNat) src s).finish
        14 src) :=
  congrArg Host.Outcome.next (State.takeCommand_taken h 14 _)

section
variable {s : State} {table index number v : Nat} {src : NetSource}

theorem State.configRead_none (h : nameField table index number = none) :
    State.configRead table index number src s = ⟨s, some ⟨.range, configItems table index number 0⟩⟩ := by
  unfold State.configRead
  rw [h]

theorem State.configRead_some {n : ConfigField} (h : nameField table index number = some n) :
    State.configRead table index number src s = ⟨s, answerOk (configItems table index number (s.cfg.read n))⟩ := by
  unfold State.configRead
  rw [h]

/-- A refused write leaves the state, and answers with the value held (R12). -/
theorem State.configWrite_refused {r : ReplyResult} (h : s.checkWrite src (nameField table index number) v = r)
    (no : r ≠ .ok) :
    State.configWrite table index number v src s =
      ⟨s, some ⟨r, configItems table index number (s.valueOf (nameField table index number))⟩⟩ := by
  unfold State.configWrite
  dsimp only
  rw [h]
  split
  · exact absurd rfl no
  · rfl

theorem State.configWrite_accepted {n : ConfigField} (named : nameField table index number = some n)
    (h : s.checkWrite src (some n) v = .ok) :
    State.configWrite table index number v src s =
      ⟨s.applyWrite n v, answerOk (configItems table index number ((s.applyWrite n v).cfg.read n))⟩ := by
  unfold State.configWrite
  dsimp only
  rw [named, h]
  rfl

end

/-- Settles O55: the read, the checks of a write one after the other, and the write accepted. -/
theorem configReadAndWrite : Obligations.ConfigReadAndWrite := by
  intro s rx args src taken named v items present refused permitted idle
  have reading := exec_configRead_taken taken args
  have writing := exec_configWrite_taken taken args
  have value : s.valueOf named = present := by
    unfold State.valueOf
    change _ = (match named with | some n => s.cfg.read n | none => 0)
    cases named <;> rfl
  have refuse {r : ReplyResult} {k : Nat} (h : s.checkWrite src named v = r) (no : r ≠ .ok) (code : r.code = k) : refused k := by
    change exec (.configWrite rx args) s = .next (s.replied 14 src k (items present))
    rw [writing, State.configWrite_refused h no, Taken.finish_some _ _ _ (by decide), code, ← value]
    rfl
  refine ⟨fun none => ?_, fun n some => ?_, fun no => ?_, fun yes busy => ?_, fun yes free none => ?_,
    fun n yes free some range => ?_, fun n yes free some range unrelated => ?_,
    fun c f yes free some range related held => ?_, fun n yes free some range related may => ?_⟩
  · rw [reading, State.configRead_none none, Taken.finish_some _ _ _ (by decide)]
    rfl
  · rw [reading, State.configRead_some some]
    exact congrArg Host.Outcome.next (Taken.finish_some _ .ok _ (by decide) src)
  · exact refuse (State.checkWrite_notPermitted no) nofun rfl
  · exact refuse (State.checkWrite_busy yes busy) nofun rfl
  · exact refuse ((congrArg (s.checkWrite src · v) none).trans (State.checkWrite_none yes free)) nofun rfl
  · refine refuse ((congrArg (s.checkWrite src · v) some).trans ((State.checkWrite_some yes free n).trans ?_)) (r := .range)
      nofun rfl
    rw [range]
    rfl
  · refine refuse ((congrArg (s.checkWrite src · v) some).trans ((State.checkWrite_some yes free n).trans ?_)) (r := .range)
      nofun rfl
    rw [range, unrelated]
    rfl
  · have no : s.mayWrite (.profile c f) = false := Bool.eq_false_iff.2 fun may => by
      obtain ⟨off, ready⟩ := (s.mayWrite_iff _).1 may c f rfl
      rcases held with on | ⟨notReady, notWarm⟩
      · exact on off
      · exact ready.elim notReady notWarm
    refine refuse ((congrArg (s.checkWrite src · v) some).trans ((State.checkWrite_some yes free _).trans ?_))
      (r := .condition) nofun rfl
    rw [range, related, no]
    rfl
  · intro t
    have check : s.checkWrite src (Option.some n) v = .ok := by
      rw [State.checkWrite_some yes free, range, related, (s.mayWrite_iff n).2 may]
      rfl
    have keeps := s.applyWrite_keeps n v
    have cfg : t.cfg = s.cfg.write n v := congrArg State.cfg keeps.frame
    have written : t.cfg.read n = v := by rw [cfg, WorkingConfig.read_write_self]
    refine ⟨?_, cfg, written, fun m other => ?_, ?_, fun c f profile => ?_, keeps.heat⟩
    · rw [writing, State.configWrite_accepted some check]
      refine congrArg Host.Outcome.next ((Taken.finish_some _ .ok _ (by decide) src).trans ?_)
      change t.replied 14 src 0 (configItems _ _ _ (t.cfg.read n)) = _
      rw [written]
      rfl
    · rw [cfg, WorkingConfig.read_write_ne _ other]
    · exact keeps.frame.trans (by rw [cfg])
    · subst profile
      exact s.applyWrite_settled c f v

end Sys2Proof.Machine
end

section
/-! SUPPORT. The store and its completion, the STATUS frame, and the ports (R14 to R17, R181, R182, R184, R200 to R204). -/

namespace Sys2Proof.Machine

/-! ### CONFIG_STORE and its completion (R14, R16) -/

theorem exec_configStore_taken {s : State} {rx : RxHeader} {src : NetSource} (h : s.Takes rx src) (args : Vector Byte 7) :
    exec (.configStore rx args) s = .next ((State.configStore src s).finish 15 src) :=
  congrArg Host.Outcome.next (State.takeCommand_taken h 15 _)

theorem PortRecord.online_iff (p : PortRecord) : p.online = true ↔ p.link = .online := decide_eq_true_iff

/-- The store reply is held behind an earlier REPLY to SERVICE, queued on an ONLINE port A, or dropped (R16, R200). -/
theorem State.placeStoreReply_eq (t : State) (r : ReplyResult) :
    t.placeStoreReply r =
      if t.portA.link = .online ∧ t.portA.hasReply .service = true then
        { t with heldStore := some (replyFrame 15 .service r.code []) }
      else if t.portA.link = .online then
        { t with portA := { t.portA with replies := t.portA.replies ++ [replyFrame 15 .service r.code []] } }
      else t := by
  unfold State.placeStoreReply State.queueReply
  rw [Answer.toReply_eq r [] (by decide) .service]
  refine if_congr (Bool.and_eq_true_iff.trans (and_congr_left' t.portA.online_iff)) rfl (if_congr ?_ rfl rfl)
  exact t.portA.online_iff

theorem sameImage_iff (written readBack : StoredImage) :
    sameImage written readBack = true ↔ readBack.values = written.values ∧ readBack.check = written.check := by
  unfold sameImage
  rw [Bool.and_eq_true_iff, decide_eq_true_iff, decide_eq_true_iff]

theorem exec_storeCompletion {s : State} {since : Moment} (h : s.store = .storing since) (readBack : Option StoredImage) :
    exec (.storeCompletion readBack) s = .next (s.completeStore (readBack.getD s.image)) := by
  change execStoreCompletion readBack s = _
  unfold execStoreCompletion
  rw [h]

/-- Settles O57: the store refused or started, and its completion by what is read back. -/
theorem storeRunsAndCompletes : Obligations.StoreRunsAndCompletes := by
  refine ⟨fun s rx args src taken => ?_, fun s since readBack storing => ?_⟩
  · intro permitted
    rw [exec_configStore_taken taken]
    unfold State.configStore
    refine ⟨fun no => ?_, fun yes busy => ?_, fun yes idle free => ?_⟩
    · rw [if_pos no]
      exact congrArg Host.Outcome.next (Taken.finish_some _ .notPermitted _ (by decide) src)
    · rw [if_neg (not_not.2 yes), if_pos (busy.imp id Option.isSome_iff_ne_none.2)]
      exact congrArg Host.Outcome.next (Taken.finish_some _ .busy _ (by decide) src)
    · rw [if_neg (not_not.2 yes), if_neg fun k => s.busy_iff.1 k ⟨idle, free⟩]
      rfl
  · intro same done
    rw [exec_storeCompletion storing]
    have matching : sameImage s.image (readBack.getD s.image) = true ↔ same := by
      rw [sameImage_iff]
      cases readBack with
      | none => exact iff_of_true ⟨rfl, rfl⟩ trivial
      | some im => exact Iff.rfl
    unfold State.completeStore
    refine ⟨fun h => ?_, fun h => ⟨{ readBack.getD s.image with spoiled := true }, rfl, ?_⟩⟩
    · rw [if_pos (matching.2 h), State.placeStoreReply_eq]
      rfl
    · rw [if_neg fun k => h (matching.1 k), State.placeStoreReply_eq]
      rfl

/-! ### The STATUS frame (R184, R201) -/

theorem packBytes_toNat (l : List Nat) (i : Nat) (h : i < 8) : (packBytes l)[i].toNat = l.getD i 0 % 256 := by
  unfold packBytes
  rw [Vector.getElem_ofFn, BitVec.toNat_ofNat]

theorem ChannelState.statusCode_lt (x : ChannelState) : x.statusCode < 4 := by
  unfold ChannelState.statusCode
  split
  · decide
  · split
    · decide
    · split <;> decide

theorem ArbRecord.asks_iff (a : ArbRecord) : a.asks = true ↔ ∃ w, a.winner = some w ∧ w.command ≠ .ask .off := by
  unfold ArbRecord.asks
  cases a.winner with
  | none => simp
  | some w => simp

theorem OutState.isOn_eq_false (o : OutState) : o.isOn = false ↔ o = .off ∨ o = .waiting := by
  cases o <;> simp [OutState.isOn]

theorem ProtState.faulty_iff (p : ProtState) : (p.tripped || p.locked) = true ↔ p ≠ .ready ∧ p ≠ .warm := by
  cases p <;> simp [ProtState.tripped, ProtState.locked]

/-- Four codes in one byte, and each read back from its place. -/
theorem fourCodes {a b c d : Nat} (ha : a < 4) (hb : b < 4) (hc : c < 4) (hd : d < 4) :
    a + 4 * b + 16 * c + 64 * d < 256 ∧ (a + 4 * b + 16 * c + 64 * d) % 4 = a
      ∧ (a + 4 * b + 16 * c + 64 * d) / 4 % 4 = b ∧ (a + 4 * b + 16 * c + 64 * d) / 16 % 4 = c
      ∧ (a + 4 * b + 16 * c + 64 * d) / 64 % 4 = d := by omega

theorem State.statusByte_eq (s : State) (b : Fin 4) :
    s.statusByte b = (s.chan (groupChannel b 0)).statusCode + 4 * (s.chan (groupChannel b 1)).statusCode
      + 16 * (s.chan (groupChannel b 2)).statusCode + 64 * (s.chan (groupChannel b 3)).statusCode := by
  unfold State.statusByte
  simp only [field_of_lt (width := 2) (ChannelState.statusCode_lt _), groupPlaces, List.map_cons, List.map_nil,
    List.sum_cons, List.sum_nil]
  simp [Nat.mul_comm, Nat.add_assoc]

theorem State.statusByte_code (s : State) (b j : Fin 4) :
    s.statusByte b % 256 / 4 ^ j.val % 4 = (s.chan (groupChannel b j)).statusCode := by
  obtain ⟨byte, first, second, third, fourth⟩ :=
    fourCodes (ChannelState.statusCode_lt (s.chan (groupChannel b 0))) (ChannelState.statusCode_lt (s.chan (groupChannel b 1)))
      (ChannelState.statusCode_lt (s.chan (groupChannel b 2))) (ChannelState.statusCode_lt (s.chan (groupChannel b 3)))
  rw [← State.statusByte_eq] at byte first second third fourth
  rw [Nat.mod_eq_of_lt byte]
  match j with
  | 0 => exact (congrArg (· % 4) (Nat.div_one _)).trans first
  | 1 => exact second
  | 2 => exact third
  | 3 => exact fourth

/-- Byte 4 of STATUS, by the level in its two bits and the five flags above. -/
def zoneByte (level : Nat) (latch hold overflow a b : Bool) : Nat :=
  level % 4 + 4 * flagBit latch + 8 * flagBit hold + 16 * flagBit overflow + 32 * flagBit a + 64 * flagBit b

/-- Five bits above two, and each read back from its place. -/
theorem fiveBits {m l h o a b n : Nat} (hm : m < 4) (hl : l < 2) (hh : h < 2) (ho : o < 2) (ha : a < 2) (hb : b < 2)
    (hn : n = m + 4 * l + 8 * h + 16 * o + 32 * a + 64 * b) :
    n < 128 ∧ n % 4 = m ∧ n / 4 % 2 = l ∧ n / 8 % 2 = h ∧ n / 16 % 2 = o ∧ n / 32 % 2 = a ∧ n / 64 % 2 = b := by omega

theorem zoneByte_bits (level : Nat) (latch hold overflow a b : Bool) :
    let n := zoneByte level latch hold overflow a b
    n < 128 ∧ n % 4 = level % 4 ∧ n.testBit 2 = latch ∧ n.testBit 3 = hold ∧ n.testBit 4 = overflow ∧ n.testBit 5 = a
      ∧ n.testBit 6 = b := by
  intro n
  obtain ⟨byte, low, two, three, four, five, six⟩ := fiveBits (n := n) (Nat.mod_lt level (by decide)) (flagBit_lt latch)
    (flagBit_lt hold) (flagBit_lt overflow) (flagBit_lt a) (flagBit_lt b) rfl
  have bit {k : Nat} {f : Bool} (h : n / 2 ^ k % 2 = flagBit f) : n.testBit k = f := by
    rw [Nat.testBit_eq_decide_div_mod_eq, h]
    cases f <;> rfl
  exact ⟨byte, low, bit two, bit three, bit four, bit five, bit six⟩

theorem State.statusFrame_zone (s : State) : s.statusFrame[4].toNat =
    zoneByte s.sup.level s.latch s.sup.hold s.faults.overflow s.portA.online s.portB.online := by
  have byte := (zoneByte_bits s.sup.level s.latch s.sup.hold s.faults.overflow s.portA.online s.portB.online).1
  unfold State.statusFrame
  rw [packBytes_toNat _ 4 (by decide)]
  simp only [field_of_lt (flagBit_lt _)]
  unfold zoneByte at byte ⊢
  simp only [field, List.getD_cons_succ, List.getD_cons_zero]
  omega

/-- Settles O58: the frame at the due moment, the code of a channel, its place in the frame, and the zone's bytes. -/
theorem statusIsBuilt : Obligations.StatusIsBuilt := by
  refine ⟨fun s port => ?_, fun x => ?_, fun s b j => ?_, fun s => ?_⟩
  · exact exec_statusDue s port
  · intro faulty asks rests
    have fault := x.prot.state.faulty_iff
    have asking := x.arb.asks_iff
    have resting := x.sw.out.isOn_eq_false
    unfold ChannelState.statusCode
    have sound (h : ¬faulty) : ¬(x.prot.state.tripped || x.prot.state.locked) = true := mt fault.1 h
    refine ⟨fun h => if_pos (fault.2 h), fun h a r => ?_, fun h r => ?_, fun h a r => ?_⟩
    · rw [if_neg (sound h), asking.2 a, resting.2 r]
      rfl
    · rw [if_neg (sound h), Bool.eq_true_of_not_eq_false (mt resting.1 r), Bool.not_true, Bool.and_false]
      rfl
    · rw [if_neg (sound h), Bool.eq_false_iff.2 (mt asking.1 a), resting.2 r]
      rfl
  · rw [← State.statusByte_code]
    unfold State.statusFrame
    rw [packBytes_toNat _ b.val (by omega)]
    match b with
    | 0 => rfl
    | 1 => rfl
    | 2 => rfl
    | 3 => rfl
  · intro zone
    obtain ⟨byte, low, latch, hold, overflow, a, b⟩ :=
      zoneByte_bits s.sup.level s.latch s.sup.hold s.faults.overflow s.portA.online s.portB.online
    rw [← State.statusFrame_zone] at byte low latch hold overflow a b
    refine ⟨fun level => low.trans (Nat.mod_eq_of_lt (Nat.lt_succ_of_le level)), latch, hold, overflow, a, b,
      Nat.testBit_lt_two_pow byte, fun few => ?_, rfl, rfl⟩
    unfold State.statusFrame
    rw [packBytes_toNat _ 5 (by decide)]
    exact Nat.mod_eq_of_lt (Nat.lt_of_le_of_lt few (by decide))

/-! ### Transmission, bus-off and the return of the link (R181, R182, R204) -/

theorem PortRecord.take_reply {p : PortRecord} {r : Reply} {rest : List Reply} (free : p.sending = none)
    (h : p.replies = r :: rest) : p.take = { p with replies := rest, sending := some (.reply r) } := by
  unfold PortRecord.take
  rw [free, h]

theorem PortRecord.take_status {p : PortRecord} {d : Vector Byte 8} (free : p.sending = none)
    (h : p.replies = []) (status : p.status = some d) : p.take = { p with status := none, sending := some (.status d) } := by
  unfold PortRecord.take
  rw [free, h, status]

theorem exec_take {s : State} {port : Port} (online : (s.port port).link = .online) :
    exec (.takeIntoTransmission port) s = .next (s.setPort port (s.port port).take) :=
  congrArg Host.Outcome.next (if_pos ((s.port port).online_iff.2 online))

theorem State.placeHeld_store {s : State} {h : Reply} (held : s.heldStore = some h) :
    s.placeHeld = ({ s with heldStore := none } : State).queueReply h := by
  unfold State.placeHeld
  rw [held]

theorem State.placeHeld_command {s : State} {h : Reply} (store : s.heldStore = none) (held : s.heldCommand = some h) :
    s.placeHeld = ({ s with heldCommand := none } : State).queueReply h := by
  unfold State.placeHeld
  rw [store, held]

theorem State.placeHeld_none {s : State} (store : s.heldStore = none) (held : s.heldCommand = none) : s.placeHeld = s := by
  unfold State.placeHeld
  rw [store, held]

theorem PortRecord.sendsTo_iff {p : PortRecord} {src : NetSource} {f : TxFrame} (sending : p.sending = some f) :
    p.sendsTo src = true ↔ ∃ r, f = .reply r ∧ r.requester = src := by
  unfold PortRecord.sendsTo
  rw [sending]
  cases f <;> simp

/-- Settles O59: the four events of a port, each by the frame or the link it finds. -/
theorem framesSentAndBusOff : Obligations.FramesSentAndBusOff := by
  refine ⟨fun s port online free => ?_, fun s port f sending => ?_, fun s port => ?_, fun s => ?_⟩
  · intro p
    rw [exec_take online]
    exact ⟨fun r rest h => by rw [PortRecord.take_reply free h], fun d h status => by rw [PortRecord.take_status free h status]⟩
  · intro sent
    refine ⟨fun other => ?_, fun r portA reply service => ?_⟩
    · refine congrArg Host.Outcome.next (if_neg fun ⟨portA, sends⟩ => ?_)
      subst portA
      obtain ⟨r, reply, service⟩ := (PortRecord.sendsTo_iff sending).1 sends
      exact other.elim nofun fun h => h r reply service
    · subst portA
      have sends : s.portA.sendsTo .service = true := (PortRecord.sendsTo_iff sending).2 ⟨r, reply, service⟩
      have done : exec (.frameSent .a) s = .next sent.placeHeld := congrArg Host.Outcome.next (if_pos ⟨rfl, sends⟩)
      rw [done]
      exact ⟨fun store held => congrArg _ (State.placeHeld_none store held),
        fun h store => congrArg _ (State.placeHeld_store store),
        fun h store held => congrArg _ (State.placeHeld_command store held)⟩
  · unfold State.frameOnBus
    exact ⟨fun h => by rw [h]; rfl, fun r h => by rw [h]; rfl, fun d h => by rw [h]; rfl⟩
  · have returned {port : Port} {since : Moment} (off : (s.port port).link = .offline since) :
        exec (.linkReturn port) s = .next ((s.advanceTo (since + 10000)).setPort port
          { (s.advanceTo (since + 10000)).port port with link := .online }) := by
      change execLinkReturn port s = _
      unfold execLinkReturn
      rw [off]
    exact ⟨fun online => congrArg Host.Outcome.next (if_pos (s.portA.online_iff.2 online)),
      fun online => congrArg Host.Outcome.next (if_pos (s.portB.online_iff.2 online)), fun since off => returned (port := .a) off,
      fun since off => returned (port := .b) off⟩

end Sys2Proof.Machine
end

section
/-! SUPPORT. Frames at their port: whose they are, which command they carry, which are discarded, and where a REPLY goes
(R182, R183, R186, R187, R200). -/

namespace Sys2Proof.Machine

/-! ### Senders (R182, R183) -/

theorem NetSource.port_eq (src : NetSource) : NetSource.port src = if src = .drive then .b else .a := by
  cases src <;> rfl

/-- The place of a source is its code less 1 (R182). -/
theorem senderAt_iff (n : Nat) (src : NetSource) : senderAt n = some src ↔ n = NetSource.code src - 1 := by
  match n with
  | 0 => cases src <;> decide
  | 1 => cases src <;> decide
  | 2 => cases src <;> decide
  | 3 => cases src <;> decide
  | n + 4 =>
    have := NetSource.code_lt src
    exact iff_of_false nofun (by omega)

theorem senderOn_iff (p : Port) (src : Option NetSource) (x : NetSource) :
    senderOn p src = some x ↔ src = some x ∧ p = if x = .drive then .b else .a := by
  rw [← NetSource.port_eq]
  unfold senderOn
  rw [Option.filter_eq_some_iff, decide_eq_true_iff, eq_comm (a := p)]

/-- A port takes data frames with an 11-bit identifier from the base on and eight bytes, while it is ONLINE (R183). -/
def State.Accepts (s : State) (rx : RxHeader) : Prop :=
  (s.port rx.port).link = .online ∧ rx.extended = false ∧ rx.remote = false ∧ rx.length = 8

theorem State.frameOffset_iff (s : State) (rx : RxHeader) (n : Nat) :
    s.frameOffset rx = some n ↔ s.Accepts rx ∧ rx.ident = 0x300 + 0x40 * s.zoneAddress + n := by
  unfold State.frameOffset State.Accepts baseIdent
  simp only [PortRecord.online_iff]
  split
  · next h =>
    obtain ⟨online, extended, remote, length, base⟩ := h
    refine Option.some_inj.trans ⟨fun e => ⟨⟨online, extended, remote, length⟩, by omega⟩, fun ⟨_, e⟩ => by omega⟩
  · next h =>
    refine iff_of_false nofun fun ⟨⟨online, extended, remote, length⟩, e⟩ => h ⟨online, extended, remote, length, by omega⟩

theorem State.commandSender_iff (s : State) (rx : RxHeader) (src : NetSource) :
    s.commandSender rx = some src ↔ s.Accepts rx ∧ rx.port = (if src = .drive then .b else .a)
      ∧ rx.ident = 0x300 + 0x40 * s.zoneAddress + 0x10 + (NetSource.code src - 1) := by
  unfold State.commandSender
  rw [Option.bind_eq_some_iff]
  constructor
  · rintro ⟨n, offset, sender⟩
    obtain ⟨accepts, ident⟩ := (s.frameOffset_iff rx n).1 offset
    obtain ⟨high, sender⟩ := (Option.ite_none_right_eq_some).1 sender
    obtain ⟨place, port⟩ := (senderOn_iff ..).1 sender
    have := (senderAt_iff ..).1 place
    exact ⟨accepts, port, by omega⟩
  · rintro ⟨accepts, port, ident⟩
    refine ⟨0x10 + (NetSource.code src - 1), (s.frameOffset_iff rx _).2 ⟨accepts, by omega⟩, ?_⟩
    rw [if_pos (by omega)]
    exact (senderOn_iff ..).2 ⟨(senderAt_iff ..).2 (by omega), port⟩

theorem State.demandSender_iff (s : State) (rx : RxHeader) (src : NetSource) :
    s.demandSender rx = some src ↔ s.Accepts rx ∧ rx.port = (if src = .drive then .b else .a)
      ∧ ∃ g : Fin 4, rx.ident = 0x300 + 0x40 * s.zoneAddress + 4 * (NetSource.code src - 1) + g.val
        ∧ s.demandGroup rx = g := by
  unfold State.demandSender
  rw [Option.bind_eq_some_iff]
  constructor
  · rintro ⟨n, offset, sender⟩
    obtain ⟨accepts, ident⟩ := (s.frameOffset_iff rx n).1 offset
    obtain ⟨place, port⟩ := (senderOn_iff ..).1 sender
    have := (senderAt_iff ..).1 place
    refine ⟨accepts, port, s.demandGroup rx, ?_, rfl⟩
    unfold State.demandGroup baseIdent
    dsimp only
    omega
  · rintro ⟨accepts, port, g, ident, -⟩
    refine ⟨4 * (NetSource.code src - 1) + g.val, (s.frameOffset_iff rx _).2 ⟨accepts, by omega⟩, ?_⟩
    exact (senderOn_iff ..).2 ⟨(senderAt_iff ..).2 (by omega), port⟩

/-! ### The command of a frame (R187) -/

/-- The command of a code from 1 to 15, none for another (R187). -/
def commandOfCode (rx : RxHeader) (args : Vector Byte 7) : Nat → Option Instr
  | 1 => some (.release rx args)
  | 2 => some (.clearChannel rx args)
  | 3 => some (.clearEmergency rx args)
  | 4 => some (.clearFaults rx args)
  | 5 => some (.shedFloor rx args)
  | 6 => some (.flashSync rx args)
  | 7 => some (.queryChannel rx args)
  | 8 => some (.queryProtection rx args)
  | 9 => some (.queryEntry rx args)
  | 10 => some (.queryZone rx args)
  | 11 => some (.readFault rx args)
  | 12 => some (.readLimitLog rx args)
  | 13 => some (.configRead rx args)
  | 14 => some (.configWrite rx args)
  | 15 => some (.configStore rx args)
  | _ => none

theorem commandOfFrame_known {rx : RxHeader} {data : Vector Byte 8} {i : Instr}
    (h : commandOfCode rx (commandArgs data) data[0].toNat = some i) : commandOfFrame rx data = i := by
  unfold commandOfFrame
  dsimp only
  split
  all_goals
    rename_i e
    rw [e] at h
    cases h <;> rfl

theorem commandOfFrame_unknown {rx : RxHeader} {data : Vector Byte 8} {code : UnknownCode} (h : data[0] = code.val) :
    commandOfFrame rx data = .unknownCommand rx code (commandArgs data) := by
  have same (p : data[0].toNat = 0 ∨ 16 ≤ data[0].toNat) : Instr.unknownCommand rx ⟨data[0], p⟩ (commandArgs data) = .unknownCommand rx code (commandArgs data) := by
    congr
  have range := code.property
  rw [← h] at range
  unfold commandOfFrame
  dsimp only
  split
  case h_1 => exact same _
  case h_17 => exact same _
  all_goals omega

theorem commandArgs_eq {data : Vector Byte 8} {args : Vector Byte 7} (h : ∀ k : Fin 7, data[k.val + 1] = args[k]) :
    commandArgs data = args := by
  refine Vector.ext fun i hi => ?_
  unfold commandArgs
  rw [Vector.getElem_ofFn]
  exact h ⟨i, hi⟩

/-- Every COMMAND frame is taken at its port (R183, R186). -/
theorem exec_command {i : Instr} {rx : RxHeader} (h : commandHeader i = some rx) (s : State) :
    ∃ code owner, exec i s = .next (s.takeCommand rx code owner) := by
  cases i <;> cases h <;> exact ⟨_, _, rfl⟩

/-! ### Discarded frames and placed replies (R186, R200) -/

theorem PortRecord.hasReply_iff_unsent (p : PortRecord) (src : NetSource) :
    p.hasReply src = true ↔ (∃ r ∈ p.replies, r.requester = src) ∨ ∃ r, p.sending = some (.reply r) ∧ r.requester = src := by
  unfold PortRecord.hasReply
  rw [Bool.or_eq_true, List.any_eq_true]
  refine or_congr (by simp) ?_
  unfold PortRecord.sendsTo
  rcases p.sending with _ | f
  · simp
  · cases f <;> simp

theorem State.placeReply_eq (s : State) (r : Reply) :
    s.placeReply r =
      if r.requester = .service ∧ s.heldStore ≠ none then { s with heldCommand := some r }
      else if (s.port (NetSource.port r.requester)).link = .online then
        s.setPort (NetSource.port r.requester) { s.port (NetSource.port r.requester) with
          replies := (s.port (NetSource.port r.requester)).replies ++ [r] }
      else s := by
  unfold State.placeReply State.queueReply
  exact if_congr (and_congr_right' Option.isSome_iff_ne_none) rfl (if_congr (PortRecord.online_iff _) rfl rfl)

/-- Settles O23: senders, commands, ignored and discarded frames, unknown codes, and placed replies. -/
theorem framesTakenAndAnswered : Obligations.FramesTakenAndAnswered := by
  refine ⟨fun s rx src => ⟨?_, ?_⟩, fun s rx data => ⟨fun h => step_receive_demand h data, fun h => step_receive_command h data,
      fun hd hc => receive_ignored hd hc data⟩, fun rx args => ?_, fun s rx data ignored => ?_, fun s i rx command ignored => ?_,
    fun s src => ?_, fun s i rx src command sender discarded => ?_, fun s rx args src taken code => ?_,
    fun s code src result data => ?_⟩
  · rw [State.commandSender_iff]
    unfold State.Accepts
    simp only [and_assoc]
  · rw [State.demandSender_iff]
    unfold State.Accepts
    simp only [and_assoc]
  · intro carries
    have known {code : Byte} {i : Instr} (h : commandOfCode rx args code.toNat = some i) : carries code i := by
      intro data first rest
      refine commandOfFrame_known ?_
      rw [commandArgs_eq rest, first]
      exact h
    refine ⟨known rfl, known rfl, known rfl, known rfl, known rfl, known rfl, known rfl, known rfl, known rfl, known rfl,
      known rfl, known rfl, known rfl, known rfl, known rfl, fun code data first rest => ?_⟩
    rw [commandOfFrame_unknown first, commandArgs_eq rest]
  · change execDemand rx data s = _
    unfold execDemand
    rw [ignored]
  · obtain ⟨code, owner, eq⟩ := exec_command command s
    rw [eq, State.takeCommand_ignored ignored]
  · intro p unsent
    have waits : p.hasReply src = true ↔ unsent := PortRecord.hasReply_iff_unsent p src
    refine ⟨fun other => ?_, fun service => ?_⟩
    · have own : s.discards src = (s.port (NetSource.port src)).hasReply src := if_neg other
      rw [own, NetSource.port_eq]
      exact waits
    · subst service
      have own : s.discards .service = (s.heldCommand.isSome || (s.heldStore.isNone && p.hasReply .service)) := rfl
      rw [own, Bool.or_eq_true, Bool.and_eq_true, Option.isSome_iff_ne_none, Option.isNone_iff_eq_none, waits]
  · obtain ⟨code, owner, eq⟩ := exec_command command s
    rw [eq, State.takeCommand_discarded sender discarded]
  · exact congrArg Host.Outcome.next ((State.takeCommand_taken taken 0 _).trans (Taken.finish_some s .unknown _ (by decide) src))
  · intro port p
    have placed := s.placeReply_eq (replyFrame code src result data)
    rw [show NetSource.port (replyFrame code src result data).requester = port from NetSource.port_eq src] at placed
    refine ⟨fun service held => placed.trans (if_pos ⟨service, held⟩), fun other online => ?_, fun other offline => ?_⟩
    · exact placed.trans ((if_neg fun ⟨service, held⟩ => other.elim (· service) held).trans (if_pos online))
    · exact placed.trans ((if_neg fun ⟨service, held⟩ => other.elim (· service) held).trans (if_neg offline))

end Sys2Proof.Machine
end

section
/-! SUPPORT. Reports to the fault list: what an occurrence and an end make of records in each case, and what two of them that
fall together make (R171 to R175). -/

namespace Sys2Proof.Machine

/-! ### One report (R172 to R174) -/

/-- A record after an occurrence of a cause that has a record: counted where it is that record (R172). -/
def FaultRecord.counted (k : FaultKey) (u : Nat) (r : FaultRecord) : FaultRecord := if r.key = k then r.again u else r

/-- A record after the end of a condition: PASSIVE where it is its record (R174). -/
def FaultRecord.ended (k : FaultKey) (r : FaultRecord) : FaultRecord := if r.key = k then { r with active := false } else r

/-- An update of the record of one key that leaves its key. -/
structure OnKey (k : FaultKey) (f : FaultRecord → FaultRecord) : Prop where
  key : ∀ r, (f r).key = r.key
  others : ∀ r, r.key ≠ k → f r = r

theorem FaultRecord.onKey_counted (k : FaultKey) (u : Nat) : OnKey k (FaultRecord.counted k u) where
  key r := by unfold FaultRecord.counted; split <;> rfl
  others _ h := if_neg h

theorem FaultRecord.onKey_ended (k : FaultKey) : OnKey k (FaultRecord.ended k) where
  key r := by unfold FaultRecord.ended; split <;> rfl
  others _ h := if_neg h

theorem FaultRecord.counted_self (r : FaultRecord) (u : Nat) : r.counted r.key u = r.again u := if_pos rfl

theorem FaultRecord.ended_self (r : FaultRecord) : r.ended r.key = { r with active := false } := if_pos rfl

/-- Updates of two keys may be made in either order. -/
theorem OnKey.comm {j k : FaultKey} {f g : FaultRecord → FaultRecord} (hf : OnKey j f) (hg : OnKey k g) (ne : j ≠ k)
    (r : FaultRecord) : g (f r) = f (g r) := by
  by_cases e : r.key = j
  · rw [hg.others r (e ▸ ne), hg.others (f r) (by rw [hf.key, e]; exact ne)]
  · rw [hf.others r e, hf.others (g r) (by rw [hg.key]; exact e)]

theorem FaultRecord.removable_iff (r : FaultRecord) (held : List FaultKey) :
    r.removable held = true ↔ r.active = false ∧ r.key ∉ held := by
  unfold FaultRecord.removable
  rw [Bool.and_eq_true, Bool.not_eq_true', Bool.not_eq_true', ← List.contains_iff_mem, Bool.not_eq_true]

theorem FaultRecord.not_removable_of_active {r : FaultRecord} (h : r.active = true) (held : List FaultKey) :
    ¬r.removable held = true := fun k => Bool.false_ne_true ((((r.removable_iff held).1 k).1).symm.trans h)

theorem FaultRecord.not_removable_of_held {r : FaultRecord} {held : List FaultKey} (h : r.key ∈ held) :
    ¬r.removable held = true := fun k => ((r.removable_iff held).1 k).2 h

section
variable {rs a b : List FaultRecord} {o : Bool} {u : Nat} {held : List FaultKey} {j k : FaultKey} {r : FaultRecord}

theorem any_key_iff (rs : List FaultRecord) (k : FaultKey) :
    rs.any (fun r => r.key == k) = true ↔ ∃ r ∈ rs, r.key = k := by simp

theorem not_any_key (new : ∀ r ∈ rs, r.key ≠ k) : ¬rs.any (fun r => r.key == k) = true := fun h =>
  let ⟨r, hr, e⟩ := (any_key_iff rs k).1 h
  new r hr e

theorem FaultRecords.occur_counted (h : ∃ r ∈ rs, r.key = k) :
    FaultRecords.occur ⟨rs, o⟩ u held k = ⟨rs.map (FaultRecord.counted k u), o⟩ := if_pos ((any_key_iff rs k).2 h)

theorem FaultRecords.occur_room (new : ∀ r ∈ rs, r.key ≠ k) (room : rs.length < 16) :
    FaultRecords.occur ⟨rs, o⟩ u held k = ⟨rs ++ [FaultRecord.fresh k u], o⟩ :=
  (if_neg (not_any_key new)).trans (if_pos room)

theorem FaultRecords.occur_full (new : ∀ r ∈ rs, r.key ≠ k) (full : 16 ≤ rs.length) :
    FaultRecords.occur ⟨rs, o⟩ u held k =
      if rs.any (fun r => r.removable held) then
        ⟨rs.eraseP (fun r => r.removable held) ++ [FaultRecord.fresh k u], o⟩
      else ⟨rs, true⟩ := (if_neg (not_any_key new)).trans (if_neg (Nat.not_lt.2 full))

/-- The oldest record that may be removed makes room (R173). -/
theorem FaultRecords.occur_replaces (new : ∀ x ∈ a ++ r :: b, x.key ≠ k) (full : 16 ≤ (a ++ r :: b).length)
    (removable : r.removable held = true) (before : ∀ x ∈ a, ¬x.removable held = true) :
    FaultRecords.occur ⟨a ++ r :: b, o⟩ u held k = ⟨a ++ b ++ [FaultRecord.fresh k u], o⟩ := by
  rw [FaultRecords.occur_full new full,
    if_pos (List.any_eq_true.2 ⟨r, List.mem_append_right _ List.mem_cons_self, removable⟩),
    List.eraseP_append_right _ before, List.eraseP_cons_of_pos (p := fun x : FaultRecord => x.removable held) removable]

/-- Where no record may be removed, a new occurrence is dropped (R173). -/
theorem FaultRecords.occur_dropped (new : ∀ x ∈ rs, x.key ≠ k) (full : 16 ≤ rs.length)
    (none : ∀ x ∈ rs, ¬x.removable held = true) : FaultRecords.occur ⟨rs, o⟩ u held k = ⟨rs, true⟩ := by
  rw [FaultRecords.occur_full new full, if_neg fun h =>
    let ⟨x, hx, e⟩ := List.any_eq_true.1 h
    none x hx e]

theorem FaultRecords.finish_eq : FaultRecords.finish ⟨rs, o⟩ k = ⟨rs.map (FaultRecord.ended k), o⟩ := rfl

theorem FaultRecords.finish_new (new : ∀ r ∈ rs, r.key ≠ k) : FaultRecords.finish ⟨rs, o⟩ k = ⟨rs, o⟩ := by
  rw [FaultRecords.finish_eq, List.map_congr_left fun r hr => (FaultRecord.onKey_ended k).others r (new r hr), List.map_id']

/-- The records beside one of a list without two of one key. -/
theorem other_keys (nodup : ((a ++ r :: b).map FaultRecord.key).Nodup) : ∀ x ∈ a ++ b, x.key ≠ r.key := by
  rw [List.map_append, List.map_cons, List.nodup_middle, List.nodup_cons, ← List.map_append] at nodup
  exact fun x hx e => nodup.1 (e ▸ List.mem_map_of_mem hx)

/-- An update of the records of one key, in a list without two of one key. -/
theorem map_of_key {f : FaultRecord → FaultRecord} (nodup : ((a ++ r :: b).map FaultRecord.key).Nodup)
    (on : OnKey r.key f) : (a ++ r :: b).map f = a ++ f r :: b := by
  have same (l : List FaultRecord) (h : ∀ x ∈ l, x ∈ a ++ b) : l.map f = l :=
    (List.map_congr_left fun x hx => on.others x (other_keys nodup x (h x hx))).trans (List.map_id' l)
  rw [List.map_append, List.map_cons, same a fun x hx => List.mem_append_left _ hx,
    same b fun x hx => List.mem_append_right _ hx]

theorem FaultRecords.occur_at (nodup : ((a ++ r :: b).map FaultRecord.key).Nodup) :
    FaultRecords.occur ⟨a ++ r :: b, o⟩ u held r.key = ⟨a ++ r.again u :: b, o⟩ := by
  rw [FaultRecords.occur_counted ⟨r, List.mem_append_right _ List.mem_cons_self, rfl⟩,
    map_of_key nodup (FaultRecord.onKey_counted ..), FaultRecord.counted_self]

theorem FaultRecords.finish_at (nodup : ((a ++ r :: b).map FaultRecord.key).Nodup) :
    FaultRecords.finish ⟨a ++ r :: b, o⟩ r.key = ⟨a ++ { r with active := false } :: b, o⟩ := by
  rw [FaultRecords.finish_eq, map_of_key nodup (FaultRecord.onKey_ended _), FaultRecord.ended_self]

theorem nodup_replace {q : FaultRecord} (nodup : ((a ++ r :: b).map FaultRecord.key).Nodup) (key : q.key = r.key) :
    ((a ++ q :: b).map FaultRecord.key).Nodup := by
  rw [List.map_append, List.map_cons, key, ← List.map_cons, ← List.map_append]
  exact nodup

theorem nodup_fresh (nodup : (rs.map FaultRecord.key).Nodup) (new : ∀ r ∈ rs, r.key ≠ k) :
    ((rs ++ [FaultRecord.fresh k u]).map FaultRecord.key).Nodup := by
  rw [List.map_append, List.map_cons, List.nodup_middle, List.nodup_cons, List.map_nil, List.append_nil]
  refine ⟨fun h => ?_, nodup⟩
  obtain ⟨x, hx, e⟩ := List.mem_map.1 h
  exact new x hx e

theorem new_fresh (new : ∀ r ∈ rs, r.key ≠ k) (ne : j ≠ k) : ∀ r ∈ rs ++ [FaultRecord.fresh j u], r.key ≠ k := by
  intro x hx
  rcases List.mem_append.1 hx with hx | hx
  · exact new x hx
  · rw [List.mem_singleton.1 hx]
    exact ne

/-! ### What a report holds (R175) -/

theorem FaultRecords.holds_room (new : ∀ r ∈ rs, r.key ≠ k) (room : rs.length < 16) :
    FaultRecords.holds ⟨rs, o⟩ (.occur k) = [] :=
  if_neg fun h => (Bool.or_eq_true_iff.1 h).elim (not_any_key new) fun e => Nat.not_le.2 room (of_decide_eq_true e)

theorem FaultRecords.holds_full (full : 16 ≤ rs.length) : FaultRecords.holds ⟨rs, o⟩ (.occur k) = [k] :=
  if_pos (Bool.or_eq_true_iff.2 (.inr (decide_eq_true full)))

theorem FaultRecords.holds_counted (h : ∃ r ∈ rs, r.key = k) : FaultRecords.holds ⟨rs, o⟩ (.occur k) = [k] :=
  if_pos (Bool.or_eq_true_iff.2 (.inl ((any_key_iff rs k).2 h)))

/-! ### Two reports that fall together (R175) -/

/-- What a report makes of the records where its cause has one. -/
def FaultRecord.after (u : Nat) : Report → FaultRecord → FaultRecord
  | .occur k => FaultRecord.counted k u
  | .finish k => FaultRecord.ended k

theorem FaultRecord.onKey_after {x : Report} (h : x = .occur k ∨ x = .finish k) (u : Nat) : OnKey k (FaultRecord.after u x) := by
  rcases h with rfl | rfl
  · exact FaultRecord.onKey_counted k u
  · exact FaultRecord.onKey_ended k

theorem FaultRecords.take_known {x : Report} (h : x = .occur k ∨ x = .finish k) (known : ∃ r ∈ rs, r.key = k) :
    FaultRecords.take ⟨rs, o⟩ u held x = ⟨rs.map (FaultRecord.after u x), o⟩ := by
  rcases h with rfl | rfl
  · exact FaultRecords.occur_counted known
  · rfl

theorem known_map {f : FaultRecord → FaultRecord} (on : OnKey j f) (known : ∃ r ∈ rs, r.key = k) :
    ∃ r ∈ rs.map f, r.key = k := by
  obtain ⟨r, hr, e⟩ := known
  exact ⟨f r, List.mem_map_of_mem hr, (on.key r).trans e⟩

theorem new_map {f : FaultRecord → FaultRecord} (on : OnKey j f) (new : ∀ r ∈ rs, r.key ≠ k) : ∀ r ∈ rs.map f, r.key ≠ k := by
  intro x hx
  obtain ⟨r, hr, rfl⟩ := List.mem_map.1 hx
  exact (on.key r).trans_ne (new r hr)

/-- Reports of two causes that each have a record give the same list in either order. -/
theorem FaultRecords.take_comm {x y : Report} {h₁ h₂ h₃ h₄ : List FaultKey} (ne : j ≠ k) (hj : ∃ r ∈ rs, r.key = j)
    (hk : ∃ r ∈ rs, r.key = k) (hx : x = .occur j ∨ x = .finish j) (hy : y = .occur k ∨ y = .finish k) :
    (FaultRecords.take ⟨rs, o⟩ u h₁ x).take u h₂ y = (FaultRecords.take ⟨rs, o⟩ u h₃ y).take u h₄ x := by
  have onX := FaultRecord.onKey_after hx u
  have onY := FaultRecord.onKey_after hy u
  rw [FaultRecords.take_known hx hj, FaultRecords.take_known hy hk, FaultRecords.take_known hy (known_map onX hk),
    FaultRecords.take_known hx (known_map onY hj), List.map_map, List.map_map]
  exact congrArg (FaultRecords.mk · o) (List.map_congr_left fun r _ => onX.comm onY ne r)

/-- Counting a record that is held does not change which records may be removed. -/
theorem FaultRecord.removable_counted (r : FaultRecord) (k : FaultKey) (u : Nat) :
    (r.counted k u).removable [k] = r.removable [k] := by
  by_cases e : r.key = k
  · rw [Bool.eq_false_iff.2 (FaultRecord.not_removable_of_held (held := [k]) (List.mem_singleton.2 e)), Bool.eq_false_iff.2
      (FaultRecord.not_removable_of_held (held := [k]) (List.mem_singleton.2 (((FaultRecord.onKey_counted k u).key r).trans e)))]
  · rw [(FaultRecord.onKey_counted k u).others r e]

theorem mem_eraseP_of_held (hr : r ∈ rs) (h : r.key ∈ held) : r ∈ rs.eraseP (fun x => x.removable held) :=
  (List.mem_eraseP_of_neg (p := fun x : FaultRecord => x.removable held) (FaultRecord.not_removable_of_held h)).2 hr

/-- A new occurrence and one that counts a record give the same list in either order (R175, last sentence). -/
theorem FaultRecords.occur_comm {h₁ h₂ : List FaultKey} (ne : j ≠ k) (new : ∀ r ∈ rs, r.key ≠ j)
    (known : ∃ r ∈ rs, r.key = k) :
    (FaultRecords.occur ⟨rs, o⟩ u [k] j).occur u h₁ k = (FaultRecords.occur ⟨rs, o⟩ u h₂ k).occur u [k] j := by
  have on := FaultRecord.onKey_counted k u
  have fresh : FaultRecord.counted k u (FaultRecord.fresh j u) = FaultRecord.fresh j u := on.others _ ne
  have same : (fun r : FaultRecord => r.removable [k]) ∘ FaultRecord.counted k u = fun r => r.removable [k] :=
    funext fun r => r.removable_counted k u
  rw [FaultRecords.occur_counted known]
  by_cases room : rs.length < 16
  · rw [FaultRecords.occur_room new room, FaultRecords.occur_room (new_map on new) (by rwa [List.length_map]),
      FaultRecords.occur_counted (known.imp fun r => And.imp_left (List.mem_append_left _)), List.map_append, List.map_singleton,
      fresh]
  · have full := Nat.not_lt.1 room
    rw [FaultRecords.occur_full new full, FaultRecords.occur_full (new_map on new) (by rwa [List.length_map]), List.any_map,
      List.eraseP_map, same]
    split
    · have kept : ∃ r ∈ rs.eraseP (fun r => r.removable [k]) ++ [FaultRecord.fresh j u], r.key = k := by
        obtain ⟨r, hr, e⟩ := known
        exact ⟨r, List.mem_append_left _ (mem_eraseP_of_held hr (List.mem_singleton.2 e)), e⟩
      rw [FaultRecords.occur_counted kept, List.map_append, List.map_singleton, fresh]
    · exact FaultRecords.occur_counted known

/-- A record held makes no room for a new occurrence. -/
theorem FaultRecords.mem_occur_of_held (hr : r ∈ rs) (key : r.key ∈ held) (new : ∀ x ∈ rs, x.key ≠ j) :
    r ∈ (FaultRecords.occur ⟨rs, o⟩ u held j).records := by
  by_cases room : rs.length < 16
  · rw [FaultRecords.occur_room new room]
    exact List.mem_append_left _ hr
  · rw [FaultRecords.occur_full new (Nat.not_lt.1 room)]
    split
    · exact List.mem_append_left _ (mem_eraseP_of_held hr key)
    · exact hr

end

/-! ### The fault list a report leaves -/

theorem FaultList.eq_of_contents {l m : FaultList} {rs : List FaultRecord} {o : Bool} (contents : m.contents = ⟨rs, o⟩)
    (uptime : m.uptime = l.uptime) (second : m.secondStart = l.secondStart) :
    m = { l with records := rs, overflow := o, together := m.together } := by
  obtain ⟨records, overflow, u, start, together⟩ := m
  cases contents
  cases uptime
  cases second
  rfl

section
variable {l : FaultList} {t : Moment} {rs : List FaultRecord} {o : Bool}

theorem FaultList.report_one_eq (h : l.together.moment ≠ t) {x : Report}
    (made : FaultRecords.take ⟨l.records, l.overflow⟩ l.uptime [] x = ⟨rs, o⟩) :
    l.report t [x] = { l with records := rs, overflow := o, together := (l.report t [x]).together } :=
  FaultList.eq_of_contents ((FaultList.report_apart h [x]).trans made) (FaultList.report_uptime ..)
    (FaultList.report_secondStart ..)

theorem FaultList.report_two_eq (h : l.together.moment ≠ t) {x y : Report}
    (made : (FaultRecords.take ⟨l.records, l.overflow⟩ l.uptime y.key?.toList x).take l.uptime
      (FaultRecords.holds ⟨l.records, l.overflow⟩ x) y = ⟨rs, o⟩) :
    (l.report t [x]).report t [y] =
      { l with records := rs, overflow := o, together := ((l.report t [x]).report t [y]).together } :=
  FaultList.eq_of_contents ((FaultList.report_two h x y).trans made)
    ((FaultList.report_uptime ..).trans (FaultList.report_uptime ..))
    ((FaultList.report_secondStart ..).trans (FaultList.report_secondStart ..))

/-- Of several reports of one event the last finds the list as the ones before it left it (R171). -/
theorem FaultList.report_last (h : l.together.moment ≠ t) (before : List Report) (last : Report) :
    (l.report t (before ++ [last])).contents = (((l.report t before).settle (t + 1)).report t [last]).contents := by
  have apart : ((l.report t before).settle (t + 1)).together.moment ≠ t := Nat.succ_ne_self t
  rw [FaultList.report_apart h, FaultList.report_apart apart, List.foldl_append, FaultList.settle_contents,
    FaultList.report_apart h, FaultList.settle_uptime, FaultList.report_uptime]

/-- Reports after a CLEAR_FAULTS of the same moment find the list it left (R176, R177). -/
theorem FaultList.report_clear (l : FaultList) (t : Moment) (reports : List Report) :
    ((l.clear t).report t reports).contents = (((l.clear t).settle (t + 1)).report t reports).contents := by
  cases reports with
  | nil => rw [FaultList.report_nil, FaultList.report_nil, FaultList.settle_contents]
  | cons x rest =>
    have apart : ((l.clear t).settle (t + 1)).together.moment ≠ t := Nat.succ_ne_self t
    rw [FaultList.report_together (show (l.clear t).together.moment = t from rfl), FaultList.report_apart apart]
    rfl

end

/-! ### The cases of R172 to R175, by the records a list has -/

section
variable {rs a b c : List FaultRecord} {o : Bool} {u : Nat} {held : List FaultKey} {j k : FaultKey} {r q : FaultRecord}

/-- Beginning and end of one condition that has a record leave it as the one taken last makes it. -/
theorem FaultRecords.begin_end_at (nodup : ((a ++ r :: b).map FaultRecord.key).Nodup) :
    (FaultRecords.occur ⟨a ++ r :: b, o⟩ u held r.key).finish r.key = ⟨a ++ { r.again u with active := false } :: b, o⟩ := by
  rw [FaultRecords.occur_at nodup]
  exact FaultRecords.finish_at (r := r.again u) (nodup_replace nodup rfl)

theorem FaultRecords.end_begin_at (nodup : ((a ++ r :: b).map FaultRecord.key).Nodup) :
    (FaultRecords.finish ⟨a ++ r :: b, o⟩ r.key).occur u held r.key = ⟨a ++ r.again u :: b, o⟩ := by
  rw [FaultRecords.finish_at nodup]
  exact FaultRecords.occur_at (r := { r with active := false }) (nodup_replace nodup rfl)

theorem FaultRecords.begin_end_new (nodup : (rs.map FaultRecord.key).Nodup) (new : ∀ r ∈ rs, r.key ≠ k)
    (room : rs.length < 16) :
    (FaultRecords.occur ⟨rs, o⟩ u held k).finish k = ⟨rs ++ [{ FaultRecord.fresh k u with active := false }], o⟩ := by
  rw [FaultRecords.occur_room new room]
  exact FaultRecords.finish_at (r := FaultRecord.fresh k u) (nodup_fresh nodup new)

/-- Two new occurrences with room for both stand in their order. -/
theorem FaultRecords.occur_two_room {h₁ h₂ : List FaultKey} (ne : j ≠ k) (newJ : ∀ r ∈ rs, r.key ≠ j)
    (newK : ∀ r ∈ rs, r.key ≠ k) (room : rs.length ≤ 14) :
    (FaultRecords.occur ⟨rs, o⟩ u h₁ j).occur u h₂ k =
      ⟨rs ++ [FaultRecord.fresh j u, FaultRecord.fresh k u], o⟩ := by
  rw [FaultRecords.occur_room newJ (by omega), FaultRecords.occur_room (new_fresh newK ne)
    (by rw [List.length_append, List.length_singleton]; omega), List.append_assoc]
  rfl

theorem length_fifteen (h : rs.length = 15) (x : FaultRecord) : 16 ≤ (rs ++ [x]).length := by
  rw [List.length_append, List.length_singleton, h]

/-- With room for one in a list of ACTIVE records, the second of two new occurrences removes the record of an event. -/
theorem FaultRecords.occur_two_event {h₁ : List FaultKey} (ne : j ≠ k) (newJ : ∀ r ∈ rs, r.key ≠ j) (newK : ∀ r ∈ rs, r.key ≠ k)
    (room : rs.length = 15) (active : ∀ r ∈ rs, r.active = true) (event : j.isEvent = true) :
    (FaultRecords.occur ⟨rs, o⟩ u h₁ j).occur u [] k = ⟨rs ++ [FaultRecord.fresh k u], o⟩ := by
  have passive : (FaultRecord.fresh j u).active = false := congrArg not event
  rw [FaultRecords.occur_room newJ (by omega), FaultRecords.occur_replaces (new_fresh newK ne) (length_fifteen room _)
    ((FaultRecord.removable_iff ..).2 ⟨passive, List.not_mem_nil⟩) fun x hx => FaultRecord.not_removable_of_active (active x hx) [],
    List.append_nil]

theorem FaultRecords.occur_two_condition {h₁ h₂ : List FaultKey} (ne : j ≠ k) (newJ : ∀ r ∈ rs, r.key ≠ j)
    (newK : ∀ r ∈ rs, r.key ≠ k) (room : rs.length = 15) (active : ∀ r ∈ rs, r.active = true) (condition : j.isEvent = false) :
    (FaultRecords.occur ⟨rs, o⟩ u h₁ j).occur u h₂ k = ⟨rs ++ [FaultRecord.fresh j u], true⟩ := by
  rw [FaultRecords.occur_room newJ (by omega)]
  refine FaultRecords.occur_dropped (new_fresh newK ne) (length_fifteen room _) fun x hx => ?_
  refine FaultRecord.not_removable_of_active ?_ h₂
  rcases List.mem_append.1 hx with hx | hx
  · exact active x hx
  · rw [List.mem_singleton.1 hx]
    exact congrArg not condition

theorem FaultRecords.occur_two_passive {h₁ : List FaultKey} (ne : j ≠ k) (newJ : ∀ x ∈ a ++ r :: b, x.key ≠ j)
    (newK : ∀ x ∈ a ++ r :: b, x.key ≠ k) (room : (a ++ r :: b).length = 15) (passive : r.active = false)
    (active : ∀ x ∈ a, x.active = true) :
    (FaultRecords.occur ⟨a ++ r :: b, o⟩ u h₁ j).occur u [] k =
      ⟨a ++ b ++ [FaultRecord.fresh j u, FaultRecord.fresh k u], o⟩ := by
  have full := length_fifteen room (FaultRecord.fresh j u)
  have new := new_fresh (u := u) newK ne
  have split : a ++ r :: b ++ [FaultRecord.fresh j u] = a ++ r :: (b ++ [FaultRecord.fresh j u]) := List.append_assoc ..
  rw [FaultRecords.occur_room newJ (by omega)]
  rw [split] at full new ⊢
  rw [FaultRecords.occur_replaces new full ((FaultRecord.removable_iff ..).2 ⟨passive, List.not_mem_nil⟩) fun x hx =>
    FaultRecord.not_removable_of_active (active x hx) [], List.append_assoc, List.append_assoc, List.append_assoc]
  rfl

/-- On a full list with two PASSIVE records each of two new occurrences takes the place of one. -/
theorem FaultRecords.occur_two_full (ne : j ≠ k) (newJ : ∀ x ∈ a ++ r :: (b ++ q :: c), x.key ≠ j)
    (newK : ∀ x ∈ a ++ r :: (b ++ q :: c), x.key ≠ k) (full : 16 ≤ (a ++ r :: (b ++ q :: c)).length)
    (passive : r.active = false) (passive' : q.active = false) (active : ∀ x ∈ a ++ b, x.active = true) :
    (FaultRecords.occur ⟨a ++ r :: (b ++ q :: c), o⟩ u [k] j).occur u [j] k =
      ⟨a ++ b ++ c ++ [FaultRecord.fresh j u, FaultRecord.fresh k u], o⟩ := by
  have memR : r ∈ a ++ r :: (b ++ q :: c) := by simp
  have memQ : q ∈ a ++ r :: (b ++ q :: c) := by simp
  have left : a ++ (b ++ q :: c) ++ [FaultRecord.fresh j u] = (a ++ b) ++ q :: (c ++ [FaultRecord.fresh j u]) := by simp
  have new : ∀ x ∈ (a ++ b) ++ q :: (c ++ [FaultRecord.fresh j u]), x.key ≠ k := by
    rw [← left]
    exact new_fresh (fun x hx => newK x (by simp at hx ⊢; tauto)) ne
  rw [FaultRecords.occur_replaces newJ full
    ((FaultRecord.removable_iff ..).2 ⟨passive, fun h => newK r memR (List.mem_singleton.1 h)⟩) fun x hx =>
    FaultRecord.not_removable_of_active (active x (List.mem_append_left _ hx)) _, left,
    FaultRecords.occur_replaces new (by simp at full ⊢; omega)
    ((FaultRecord.removable_iff ..).2 ⟨passive', fun h => newJ q memQ (List.mem_singleton.1 h)⟩) fun x hx =>
    FaultRecord.not_removable_of_active (active x hx) _]
  simp

/-- On a full list with one PASSIVE record the first takes its place, and the second is dropped (R175, first row). -/
theorem FaultRecords.occur_two_dropped (ne : j ≠ k) (newJ : ∀ x ∈ a ++ r :: b, x.key ≠ j) (newK : ∀ x ∈ a ++ r :: b, x.key ≠ k)
    (full : 16 ≤ (a ++ r :: b).length) (passive : r.active = false) (active : ∀ x ∈ a ++ b, x.active = true) :
    (FaultRecords.occur ⟨a ++ r :: b, o⟩ u [k] j).occur u [j] k = ⟨a ++ b ++ [FaultRecord.fresh j u], true⟩ := by
  have memR : r ∈ a ++ r :: b := List.mem_append_right _ List.mem_cons_self
  rw [FaultRecords.occur_replaces newJ full
    ((FaultRecord.removable_iff ..).2 ⟨passive, fun h => newK r memR (List.mem_singleton.1 h)⟩) fun x hx =>
    FaultRecord.not_removable_of_active (active x (List.mem_append_left _ hx)) _]
  refine FaultRecords.occur_dropped (new_fresh (fun x hx => newK x (by simp at hx ⊢; tauto)) ne) (by simp at full ⊢; omega)
    fun x hx => ?_
  rcases List.mem_append.1 hx with hx | hx
  · exact FaultRecord.not_removable_of_active (active x hx) _
  · rw [List.mem_singleton.1 hx]
    exact FaultRecord.not_removable_of_held (List.mem_singleton.2 rfl)

/-- On a full list of ACTIVE records an end that is taken first makes room for a new occurrence. -/
theorem FaultRecords.end_makes_room (nodup : ((a ++ r :: b).map FaultRecord.key).Nodup)
    (new : ∀ x ∈ a ++ r :: b, x.key ≠ j) (full : 16 ≤ (a ++ r :: b).length) (active : ∀ x ∈ a ++ r :: b, x.active = true) :
    (FaultRecords.finish ⟨a ++ r :: b, o⟩ r.key).occur u [] j = ⟨a ++ b ++ [FaultRecord.fresh j u], o⟩ := by
  have memR : r ∈ a ++ r :: b := List.mem_append_right _ List.mem_cons_self
  rw [FaultRecords.finish_at nodup]
  refine FaultRecords.occur_replaces (r := { r with active := false }) (fun x hx => ?_) ?_
    ((FaultRecord.removable_iff ..).2 ⟨rfl, List.not_mem_nil⟩) fun x hx =>
      FaultRecord.not_removable_of_active (active x (List.mem_append_left _ hx)) []
  · rcases List.mem_append.1 hx with hx | hx
    · exact new x (List.mem_append_left _ hx)
    · rcases List.mem_cons.1 hx with rfl | hx
      · exact new r memR
      · exact new x (List.mem_append_right _ (List.mem_cons_of_mem _ hx))
  · rw [List.length_append, List.length_cons] at full ⊢
    exact full

theorem FaultRecords.dropped_end (nodup : ((a ++ r :: b).map FaultRecord.key).Nodup) (new : ∀ x ∈ a ++ r :: b, x.key ≠ j)
    (full : 16 ≤ (a ++ r :: b).length) (active : ∀ x ∈ a ++ r :: b, x.active = true) :
    (FaultRecords.occur ⟨a ++ r :: b, o⟩ u held j).finish r.key = ⟨a ++ { r with active := false } :: b, true⟩ := by
  rw [FaultRecords.occur_dropped new full fun x hx => FaultRecord.not_removable_of_active (active x hx) held]
  exact FaultRecords.finish_at nodup

end

/-- Settles O60: the reports of one event by R172 to R174, and of two that fall together by R175. -/
theorem reportsReachFaultList : Obligations.ReportsReachFaultList := by
  intro l now' k nodup apart fresh leaves full allActive new two
  have one {x : Report} {rs : List FaultRecord} {o : Bool}
      (made : FaultRecords.take ⟨l.records, l.overflow⟩ l.uptime [] x = ⟨rs, o⟩) : leaves (l.report now' [x]) rs o :=
    FaultList.report_one_eq apart made
  have both {x y : Report} {rs : List FaultRecord} {o : Bool}
      (made : (FaultRecords.take ⟨l.records, l.overflow⟩ l.uptime y.key?.toList x).take l.uptime
        (FaultRecords.holds ⟨l.records, l.overflow⟩ x) y = ⟨rs, o⟩) : leaves (two x y) rs o :=
    FaultList.report_two_eq apart made
  have idle {rs : List FaultRecord} (active : ∀ r ∈ rs, r.active = true) (held : List FaultKey) :
      ∀ r ∈ rs, ¬r.removable held = true := fun r hr => FaultRecord.not_removable_of_active (active r hr) held
  refine ⟨fun a r b at' key => ?_, fun newK => ⟨one (FaultRecords.finish_new newK), fun room => ⟨?_, ?_, ?_⟩,
      fun full active => ⟨?_, ?_, ?_⟩, fun a r b full at' passive active => ?_⟩,
    fun first rest last => FaultList.report_last apart (first :: rest) last, fun reports => l.report_clear now' reports,
    fun j ne => ⟨fun knownJ knownK x y hx hy => ?_, fun newJ knownK => ⟨?_, ?_⟩, fun newJ newK room => both ?_,
      fun newJ newK room => ⟨fun active event => both ?_, fun active condition => both ?_,
        fun a r b at' passive active => both ?_⟩,
      fun a r b q c at' full newJ newK passive passive' active => both ?_,
      fun a r b at' full newJ => ⟨fun newK passive active => both ?_, fun key active => ⟨both ?_, both ?_⟩⟩⟩⟩
  · subst key
    intro again
    rw [at'] at nodup
    refine ⟨one ?_, one ?_, both ?_, both ?_⟩ <;> rw [at']
    · exact FaultRecords.occur_at nodup
    · exact FaultRecords.finish_at nodup
    · exact FaultRecords.begin_end_at nodup
    · exact FaultRecords.end_begin_at nodup
  · exact one (FaultRecords.occur_room newK room)
  · exact both (FaultRecords.begin_end_new nodup newK room)
  · exact both ((congrArg (FaultRecords.occur · l.uptime _ k) (FaultRecords.finish_new newK)).trans
      (FaultRecords.occur_room newK room))
  · exact one (FaultRecords.occur_dropped newK full (idle active _))
  · exact both ((congrArg (FaultRecords.finish · k) (FaultRecords.occur_dropped newK full (idle active _))).trans
      (FaultRecords.finish_new newK))
  · exact both ((congrArg (FaultRecords.occur · l.uptime _ k) (FaultRecords.finish_new newK)).trans
      (FaultRecords.occur_dropped newK full (idle active _)))
  · change 16 ≤ l.records.length at full
    change ∀ r ∈ l.records, r.key ≠ k at newK
    refine one ?_
    rw [at'] at full newK ⊢
    exact FaultRecords.occur_replaces newK full ((FaultRecord.removable_iff ..).2 ⟨passive, List.not_mem_nil⟩) (idle active _)
  · exact (FaultList.report_two apart x y).trans ((FaultRecords.take_comm ne knownJ knownK hx hy).trans
      (FaultList.report_two apart y x).symm)
  · refine (FaultList.report_two apart _ _).trans (Eq.trans ?_ (FaultList.report_two apart _ _).symm)
    rw [show l.contents.holds (.occur k) = [k] from FaultRecords.holds_counted knownK]
    exact FaultRecords.occur_comm ne newJ knownK
  · obtain ⟨r, hr, rfl⟩ := knownK
    refine ⟨r, hr, rfl, ?_⟩
    have made : (two (.occur j) (.occur r.key)).contents =
        (FaultRecords.occur ⟨l.records, l.overflow⟩ l.uptime [j] r.key).occur l.uptime [r.key] j :=
      (FaultList.report_two apart _ _).trans (FaultRecords.occur_comm ne newJ ⟨r, hr, rfl⟩)
    have counted := FaultRecord.onKey_counted r.key l.uptime
    rw [FaultRecords.occur_counted ⟨r, hr, rfl⟩] at made
    change r.again l.uptime ∈ (two (.occur j) (.occur r.key)).contents.records
    rw [made, ← FaultRecord.counted_self]
    exact FaultRecords.mem_occur_of_held (List.mem_map_of_mem hr) (List.mem_singleton.2 (counted.key r)) (new_map counted newJ)
  · exact FaultRecords.occur_two_room ne newJ newK room
  · rw [FaultRecords.holds_room newJ (by omega)]
    exact FaultRecords.occur_two_event ne newJ newK room active event
  · exact FaultRecords.occur_two_condition ne newJ newK room active condition
  · change ∀ r ∈ l.records, r.key ≠ j at newJ
    change ∀ r ∈ l.records, r.key ≠ k at newK
    rw [FaultRecords.holds_room newJ (by omega)]
    rw [at'] at room newJ newK ⊢
    exact FaultRecords.occur_two_passive ne newJ newK room passive active
  · change 16 ≤ l.records.length at full
    change ∀ r ∈ l.records, r.key ≠ j at newJ
    change ∀ r ∈ l.records, r.key ≠ k at newK
    rw [FaultRecords.holds_full full]
    rw [at'] at full newJ newK ⊢
    exact FaultRecords.occur_two_full ne newJ newK full passive passive' active
  · change 16 ≤ l.records.length at full
    change ∀ r ∈ l.records, r.key ≠ j at newJ
    change ∀ r ∈ l.records, r.key ≠ k at newK
    rw [FaultRecords.holds_full full]
    rw [at'] at full newJ newK ⊢
    exact FaultRecords.occur_two_dropped ne newJ newK full passive active
  · subst key
    change 16 ≤ l.records.length at full
    change ∀ r ∈ l.records, r.key ≠ j at newJ
    change ∀ r ∈ l.records, r.active = true at active
    rw [at'] at full newJ active nodup ⊢
    exact FaultRecords.end_makes_room nodup newJ full active
  · subst key
    change 16 ≤ l.records.length at full
    change ∀ r ∈ l.records, r.key ≠ j at newJ
    change ∀ r ∈ l.records, r.active = true at active
    rw [at'] at full newJ active nodup ⊢
    exact FaultRecords.dropped_end nodup newJ full active

end Sys2Proof.Machine
end
